-- ==== Sys2Proof/Word.lean ====
section
/-!
DEFINITION. The words of the ZC-440: octets, 16-bit numbers and crossing-clock times, and the numbers that name
heads, sections, slots and tracks (00_scope.md, Numbering and naming).
-/
namespace Sys2Proof

/-- One octet of a frame, a reply or a configuration entry. -/
abbrev Octet := BitVec 8

/-- A number of two octets. -/
abbrev Half := BitVec 16

/-- A time on the crossing clock: 32 bits of whole milliseconds, wrapping (00_scope.md, Units). -/
abbrev Time := BitVec 32

/-- A set of the nine fault classes, one bit per class in class order (R150, R181). -/
abbrev ClassSet := BitVec 9

/-- A head, H0 to H11. -/
abbrev HeadId := Fin 12

/-- A section, S0 to S9. -/
abbrev SectionId := Fin 10

/-- A movement slot, 0 to 15. -/
abbrev SlotId := Fin 16

/-- A track; track n of the manual is the value n - 1. -/
abbrev TrackId := Fin 4

end Sys2Proof
end

