-- ==== Sys2Proof/Syntax.lean ====
section
/-!
DEFINITION. The commands of the ZC-440: one constructor of `Instr` per row of spec/opcode_table.json, in the table's
order, and the names their operands are made of. `dt` is the time that has passed since the command before, in
hundredths of a millisecond (DESIGN CHOICE, log 1). The arguments of a request are the octets of its frame (R181), so
that an argument out of range can be written and is refused by the part, not by the syntax.
-/
namespace Sys2Proof

/-- The four request ports (R172). -/
inductive Port where
  | laneA | laneB | signaller | service
deriving DecidableEq, Repr

/-- A side of a head, of an island, or an end of a section: A or B. -/
inductive Side where
  | a | b
deriving DecidableEq, Repr

/-- Direction of travel: AB toward the B end, BA toward the A end. -/
inductive Dir where
  | ab | ba
deriving DecidableEq, Repr

/-- A raw input level (R2). -/
inductive Level where
  | low | high
deriving DecidableEq, Repr

/-- The four booms, in boom order (R181). -/
inductive BoomId where
  | entry1 | exit1 | entry2 | exit2
deriving DecidableEq, Repr

/-- The six lamp channels, in the order of R136. -/
inductive Channel where
  | amber1 | redLeft1 | redRight1 | amber2 | redLeft2 | redRight2
deriving DecidableEq, Repr

/-- The two lane computers. -/
inductive Lane where
  | a | b
deriving DecidableEq, Repr

/-- The two contacts of a boom (R127). -/
inductive ContactId where
  | up | down
deriving DecidableEq, Repr

/-- The mean currents of the six channels over a phase, less its first 100 ms, in mA (R138). -/
structure Currents where
  amber1 : Nat
  redLeft1 : Nat
  redRight1 : Nat
  amber2 : Nat
  redLeft2 : Nat
  redRight2 : Nat
deriving DecidableEq, Repr

/-- The mean currents of the four red channels over the last 50 ms of a proving pulse, in mA (R141). -/
structure RedCurrents where
  redLeft1 : Nat
  redRight1 : Nat
  redLeft2 : Nat
  redRight2 : Nat
deriving DecidableEq, Repr

/-- The commands of the block, one constructor per row of spec/opcode_table.json. -/
inductive Instr where
  /-- POWER_ON (R191): the logic supply is first applied, with the supply sense at `sense` mV. -/
  | powerOn (sense : Nat)
  /-- SUPPLY_RESET (R190): the supply sense has fallen to `sense` mV, below 18 000. -/
  | supplyReset (dt : Nat) (sense : Nat)
  /-- SUPPLY_RESET_HOLD_END (R190): the supply sense has risen to `sense` mV, above 18 500. The clock stands in the hold. -/
  | supplyResetHoldEnd (sense : Nat)
  /-- SUPPLY_STATE_CHANGE (R189): the supply sense now reads `sense` mV. -/
  | supplyStateChange (dt : Nat) (sense : Nat)
  /-- STABILISATION_WAIT_END (R192). -/
  | stabilisationWaitEnd (dt : Nat)
  /-- READ_COMPLETION (R192): the store reports the end of the image read. -/
  | readCompletion (dt : Nat)
  /-- READ_EXPIRY (R192). -/
  | readExpiry (dt : Nat)
  /-- TRANSFER_IGNORED (R173): a transfer with no whole first octet (`none`) or a first octet that names no transfer. -/
  | transferIgnored (dt : Nat) (port : Port) (first : Option Octet)
  /-- COLLECT (R173): a COLLECT transfer in which `clocked` octets are clocked after the first. -/
  | collect (dt : Nat) (port : Port) (clocked : Nat)
  /-- STATUS (R169). -/
  | status (dt : Nat) (port : Port) (tag : Octet)
  /-- POLL (R166). -/
  | poll (dt : Nat) (port : Port) (tag : Octet)
  /-- TEST (R178). -/
  | test (dt : Nat) (port : Port) (tag : Octet) (predicate : Octet)
  /-- READ-MOVEMENTS (R61). -/
  | readMovements (dt : Nat) (port : Port) (tag : Octet) (first last : Octet)
  /-- READ-SECTIONS (R39). -/
  | readSections (dt : Nat) (port : Port) (tag : Octet)
  /-- READ-HEADS (R17). -/
  | readHeads (dt : Nat) (port : Port) (tag : Octet)
  /-- READ-FAULTS (R168). -/
  | readFaults (dt : Nat) (port : Port) (tag : Octet) (first last : Octet)
  /-- SET-ATTENTION (R179). -/
  | setAttention (dt : Nat) (port : Port) (tag : Octet) (mode : Octet)
  /-- HOLD (R88). -/
  | hold (dt : Nat) (port : Port) (tag : Octet)
  /-- RELEASE (R88). -/
  | release (dt : Nat) (port : Port) (tag : Octet)
  /-- CONSENT (R90): consent to raise at the end of closure `closure`. -/
  | consent (dt : Nat) (port : Port) (tag : Octet) (closure : Half)
  /-- AGREE-RESET (R95). -/
  | agreeReset (dt : Nat) (port : Port) (tag : Octet) (sect : Octet)
  /-- DEPART (R75). -/
  | depart (dt : Nat) (port : Port) (tag : Octet) (number : Octet)
  /-- REOPEN-STANDING (R73). -/
  | reopenStanding (dt : Nat) (port : Port) (tag : Octet) (number : Octet)
  /-- RESET-SECTION (R30). -/
  | resetSection (dt : Nat) (port : Port) (tag : Octet) (sect kind : Octet)
  /-- ACK-FAULT (R158). -/
  | ackFault (dt : Nat) (port : Port) (tag : Octet) (id : Octet)
  /-- PERMIT-MAINTENANCE (R97). -/
  | permitMaintenance (dt : Nat) (port : Port) (tag : Octet)
  /-- WITHDRAW-PERMIT (R97). -/
  | withdrawPermit (dt : Nat) (port : Port) (tag : Octet)
  /-- ENTER-MAINTENANCE (R121). -/
  | enterMaintenance (dt : Nat) (port : Port) (tag : Octet)
  /-- LEAVE-MAINTENANCE (R122). -/
  | leaveMaintenance (dt : Nat) (port : Port) (tag : Octet)
  /-- BOOM-TEST (R145). -/
  | boomTest (dt : Nat) (port : Port) (tag : Octet) (boom direction : Octet)
  /-- LAMP-TEST (R147). -/
  | lampTest (dt : Nat) (port : Port) (tag : Octet) (channel : Octet)
  /-- SET-MASKS (R160). -/
  | setMasks (dt : Nat) (port : Port) (tag : Octet) (masks : Half)
  /-- RESTART (R193). -/
  | restart (dt : Nat) (port : Port) (tag : Octet)
  /-- LOAD-WINDOW (R183). -/
  | loadWindow (dt : Nat) (port : Port) (tag : Octet) (table first last : Octet)
  /-- LOAD-DATA (R184): `count` entries of table `table`, their octets in order. -/
  | loadData (dt : Nat) (port : Port) (tag : Octet) (table count : Octet) (entries : List Octet)
  /-- LOAD-CONTINUE (R184). -/
  | loadContinue (dt : Nat) (port : Port) (tag : Octet) (table count : Octet) (entries : List Octet)
  /-- READ-WINDOW (R185). -/
  | readWindow (dt : Nat) (port : Port) (tag : Octet) (copy table first last : Octet)
  /-- COMMIT (R187). -/
  | commit (dt : Nat) (port : Port) (tag : Octet)
  /-- WRITE_COMPLETION (R188): the store reports the end of a write, with success or failure. -/
  | writeCompletion (dt : Nat) (success : Bool)
  /-- WRITE_EXPIRY (R188). -/
  | writeExpiry (dt : Nat)
  /-- SENSOR_EVENT (R2, R5): the raw input of one sensor of `head` has stood at `level` for `held` hundredths of a ms. -/
  | sensorEvent (dt : Nat) (head : HeadId) (side : Side) (level : Level) (held : Nat)
  /-- SENSOR_STUCK_EXPIRY (R9). -/
  | sensorStuckExpiry (dt : Nat) (head : HeadId) (side : Side)
  /-- HEAD_RECOVERY (R13). -/
  | headRecovery (dt : Nat) (head : HeadId)
  /-- ATTENTION_PULSE_END (R180). -/
  | attentionPulseEnd (dt : Nat) (port : Port)
  /-- DUE_TIME_REACHED (R67), for the movement in `slot`. -/
  | dueTimeReached (dt : Nat) (slot : SlotId)
  /-- RAISE_BLOCKER_APPEARS (R79), for the movement in `slot`. -/
  | raiseBlockerAppears (dt : Nat) (slot : SlotId)
  /-- LONG_APPROACH_EXPIRY (R72), for the movement in `slot`. -/
  | longApproachExpiry (dt : Nat) (slot : SlotId)
  /-- AMBER_EXPIRY (R107). -/
  | amberExpiry (dt : Nat)
  /-- BOOM_DELAY_EXPIRY (R107). -/
  | boomDelayExpiry (dt : Nat)
  /-- EXIT_WAIT_EXPIRY (R108). -/
  | exitWaitExpiry (dt : Nat)
  /-- MINIMUM_CLOSED_EXPIRY (R109). -/
  | minimumClosedExpiry (dt : Nat)
  /-- SECOND_TRAIN_EXPIRY (R120). -/
  | secondTrainExpiry (dt : Nat)
  /-- LANE_CONTACT_EXPIRY (R86). -/
  | laneContactExpiry (dt : Nat) (lane : Lane)
  /-- LANE_NOT_HEARD_EXPIRY (R86). -/
  | laneNotHeardExpiry (dt : Nat) (lane : Lane)
  /-- CONSENT_EXPIRY (R92). -/
  | consentExpiry (dt : Nat) (lane : Lane)
  /-- LANE_DISAGREE_EXPIRY (R94). -/
  | laneDisagreeExpiry (dt : Nat)
  /-- RESET_AGREEMENT_LAPSE (R96). -/
  | resetAgreementLapse (dt : Nat) (lane : Lane)
  /-- CONTACT_CHANGE (R127): the raw input of one contact of `boom` has shown MADE (`made`) or OPEN for `held`
  hundredths of a ms. -/
  | contactChange (dt : Nat) (boom : BoomId) (contact : ContactId) (made : Bool) (held : Nat)
  /-- SETTLE_EXPIRY (R130). -/
  | settleExpiry (dt : Nat) (boom : BoomId)
  /-- BOOM_TRAVEL_EXPIRY (R131). -/
  | boomTravelExpiry (dt : Nat) (boom : BoomId)
  /-- REST_MARK_EXPIRY (R131). -/
  | restMarkExpiry (dt : Nat) (boom : BoomId)
  /-- CONTACT_CONFLICT_EXPIRY (R132). -/
  | contactConflictExpiry (dt : Nat) (boom : BoomId)
  /-- BOOM_RECOVERY_EXPIRY (R135). -/
  | boomRecoveryExpiry (dt : Nat) (boom : BoomId)
  /-- PHASE_END (R138), with the currents of the phase that ends. -/
  | phaseEnd (dt : Nat) (currents : Currents)
  /-- PULSE_TIMER_EXPIRY (R141). -/
  | pulseTimerExpiry (dt : Nat)
  /-- PROVING_PULSE_END (R141), with the currents of the pulse. -/
  | provingPulseEnd (dt : Nat) (currents : RedCurrents)
  /-- LAMP_TEST_END (R147). -/
  | lampTestEnd (dt : Nat)
  /-- TONE_END (R144), with the mean coil current over the tone less its first 50 ms, in mA. -/
  | toneEnd (dt : Nat) (current : Nat)
  /-- REQUEST_FRAME_FAILED (R174): a REQUEST transfer in which `octets` arrived after the first octet. -/
  | requestFrameFailed (dt : Nat) (port : Port) (octets : List Octet)
deriving DecidableEq, Repr

end Sys2Proof
end

