-- ==== Sys2Proof/Decode.lean ====
section
/-!
DEFINITION. The command a word of the opcode table spells. The table gives its rows no bits, so no word spells a command
(log 40).
-/
namespace Sys2Proof

/-- The command whose bits are `w`, over the rows of the table that give bits: there are none. -/
def decodeTableWord (_nbits _w : Nat) : Option Instr := none

end Sys2Proof
end

