-- ==== Sys2Proof/Config.lean ====
section
/-!
DEFINITION. What is fixed for one installation: the six tables of a configuration with the fields of R181 in their
octet widths (a staging copy may hold any octets, R182), and the model's free values, constants with no body that
stand for what the manual leaves open.
-/
namespace Sys2Proof

/-- An entry of SECTIONS (R181): six octets. -/
structure SectionEntry where
  used : Octet
  track : Octet
  role : Octet
  side : Octet
  aHead : Octet
  bHead : Octet
deriving DecidableEq, Repr

/-- An entry of MAP (R62, R181): two octets. -/
structure MapEntry where
  profile : Octet
  attributes : Octet
deriving DecidableEq, Repr

/-- An entry of PROFILES, a timing profile (R63, R181): eleven octets. -/
structure ProfileEntry where
  length : Half
  advanceHead : Octet
  advanceDistance : Half
  minimumWarning : Octet
  maximumApproach : Half
  raiseMargin : Octet
  haltGrace : Half
deriving DecidableEq, Repr

/-- An entry of HEADS (R1, R181): five octets. -/
structure HeadEntry where
  spacing : Half
  debounce : Octet
  polarities : Octet
  stuckLimit : Octet
deriving DecidableEq, Repr

/-- An entry of OUTPUTS (R125, R181): four numbers of two octets, named as entry 0, entry 1 or a channel entry names them. -/
structure OutputsEntry where
  w0 : Half
  w1 : Half
  w2 : Half
  w3 : Half
deriving DecidableEq, Repr

/-- The one entry of SEQUENCE (R103, R181): twelve octets. -/
structure SequenceEntry where
  amber : Octet
  boomDelay : Octet
  exitWait : Octet
  minimumClosed : Octet
  flashPeriod : Octet
  laneContact : Half
  couplingGap : Octet
  arrangement : Octet
  compact : Octet
  defaultMasks : Half
deriving DecidableEq, Repr

/-- A whole configuration: the six tables (10_configuration_supply_and_start_up.md, The three copies). -/
structure ConfigImage where
  sections : Vector SectionEntry 10
  map : Vector MapEntry 21
  profiles : Vector ProfileEntry 16
  heads : Vector HeadEntry 12
  outputs : Vector OutputsEntry 8
  sequence : SequenceEntry
deriving DecidableEq, Repr

/-- Free value: the seconds count when more than 2^32 - 1 seconds have passed since start-up. R150 bounds the count and
says that it does not wrap, and gives it no value past its bound (log 6). -/
opaque Config.secondsBeyond : Nat → BitVec 32

/-- Free value: the 32-bit check value of an image. R182 says that the store computes it over the contents in table
order and gives no algorithm (log 5). -/
opaque Config.checkValue : ConfigImage → BitVec 32

end Sys2Proof
end

