-- ==== Sys2Proof/Machine/Records.lean ====
section
/-!
DEFINITION. The records of the eleven blocks, as plain data: one structure per record the manual names, with the manual's
own fields. A field the manual marks as absent in some states is an `Option`. Each structure cites the rule that gives it.
-/
namespace Sys2Proof.Machine

/-! ## Head decoders -/

/-- The failure kinds of a head (R4). -/
inductive HeadFailure where
  | sensorStuck | sensorImbalance
deriving DecidableEq, Repr

/-- The decoder states (R4), in its order. -/
inductive DecoderState where
  | settling | quiet | entering | spanned | leaving
deriving DecidableEq, Repr

/-- A crossing-clock time at 0.01 ms (R3). -/
structure FineTime where
  ms : Time
  frac : Nat
deriving DecidableEq, Repr

/-- A sensor field of the head record (R4), with the mark that its present occupation has triggered R9. -/
structure Sensor where
  occupied : Bool
  changed : Time
  stuckTaken : Bool
deriving DecidableEq, Repr

/-- The last passage of a head (R4). -/
structure LastPassage where
  dir : Dir
  speed : Option Nat
  time : Time
deriving DecidableEq, Repr

/-- A head record (R4); the condition is WORKING when `failure` is absent. -/
structure Head where
  failure : Option HeadFailure
  decoder : DecoderState
  sensorA : Sensor
  sensorB : Sensor
  entrySide : Option Side
  capture : Option FineTime
  speed : Option Nat
  heldSide : Option Side
  partials : Nat
  quietSince : Option Time
  lastPassage : Option LastPassage
  /-- The moment observation began (R14), as an uptime; absent while the head is not observed (R15). -/
  observedFrom : Option Nat
deriving DecidableEq, Repr

/-! ## Section counter -/

/-- The role of a section, with the side of an approach (R18). -/
inductive Role where
  | island
  | approach (side : Side)
deriving DecidableEq, Repr

/-- The fields a section takes from its SECTIONS entry (R18). -/
structure Place where
  track : TrackId
  role : Role
  aHead : HeadId
  bHead : HeadId
deriving DecidableEq, Repr

/-- The section states (R18), in its order. -/
inductive SectionState where
  | clear | occupied | disturbed | restoring
deriving DecidableEq, Repr

/-- The disturb causes (R18), in its order. -/
inductive DisturbCause where
  | start | headFailed | underflow | overflow | listFull | tableFull | config
deriving DecidableEq, Repr

/-- The restore kinds: SWEEP of R18, SWEEP and DIRECT of R30. -/
inductive RestoreKind where
  | sweep | direct
deriving DecidableEq, Repr

/-- A section record (R18); `place` is absent in an unused section and in STARTING (R37). -/
structure Section where
  place : Option Place
  count : Nat
  state : SectionState
  cause : Option DisturbCause
  restore : Option RestoreKind
  sweepEnd : Option Side
  /-- The movements of the list, by slot, from the A end to the B end (R43). -/
  list : List SlotId
deriving DecidableEq, Repr

/-! ## Movement tracker -/

/-- The states of a movement (R57), in its order. -/
inductive MoveState where
  | arriving | due | standing | crossing | leaving
deriving DecidableEq, Repr

/-- The origins of a movement (R40), in its order. -/
inductive Origin where
  | outer | fromDisturbed | reversedHere
deriving DecidableEq, Repr

/-- One entry of a span (R42). -/
structure SpanEntry where
  sect : SectionId
  axles : Nat
deriving DecidableEq, Repr

/-- A rear passage or an advance passage (R40): a head and a passage time. -/
structure HeadTime where
  head : HeadId
  time : Time
deriving DecidableEq, Repr

/-- A movement record (R40). Total axles is the sum of the span and is computed. -/
structure Movement where
  number : Nat
  track : TrackId
  dir : Dir
  state : MoveState
  span : List SpanEntry
  entrySpeed : Option Nat
  origin : Origin
  dueTime : Option Time
  warnedAt : Option Time
  dueSince : Option Time
  lastAxle : Time
  rear : Option HeadTime
  advance : Option HeadTime
  crossed : Bool
  crossingAxles : Nat
  reversed : Bool
  /-- Whether LONG-APPROACH has been raised in this continuous period in DUE (R72). -/
  longRaised : Bool
deriving DecidableEq, Repr

/-- The movement table, the number counter and the generation number (R40, R41, R58). -/
structure Tracker where
  slots : Vector (Option Movement) 16
  counter : Nat
  generation : Half
deriving DecidableEq, Repr

/-- What the approach timer has last handed to its neighbours: demand (R77), the raise blocker (R79) and the traffic
condition (R145). -/
structure Approach where
  demand : Bool
  blocker : Bool
  traffic : Bool
deriving DecidableEq, Repr

/-! ## Stance combiner -/

/-- Lane contact (R84), in the order of R181. -/
inductive Contact where
  | notHeard | present | lost
deriving DecidableEq, Repr

/-- A consent (R84). -/
structure Consent where
  closure : Half
  given : Time
deriving DecidableEq, Repr

/-- A reset agreement (R84). -/
structure Agreement where
  sect : SectionId
  given : Time
deriving DecidableEq, Repr

/-- The stance of a lane (R84). -/
structure LaneStance where
  contact : Contact
  lastContact : Option Time
  /-- The moment from which the 10 s limit of R86 runs. -/
  supervisedFrom : Option Time
  hold : Bool
  consent : Option Consent
  agreement : Option Agreement
deriving DecidableEq, Repr

/-- Disagreement supervision under way (R94): its beginning, and whether it has raised its fault. -/
structure Disagreement where
  since : Time
  raised : Bool
deriving DecidableEq, Repr

/-- The four stance records (R84) and the disagreement supervision. -/
structure Stances where
  laneA : LaneStance
  laneB : LaneStance
  signallerHold : Bool
  permit : Bool
  serviceHold : Bool
  maintenance : Bool
  disagreement : Option Disagreement
deriving DecidableEq, Repr

/-! ## Crossing sequencer -/

/-- The sequencer states (R102), in its order. -/
inductive SeqState where
  | open | amber | redWarning | entryLowering | exitWait | exitLowering | closed | raising | reclosing | failedClosed
deriving DecidableEq, Repr

/-- Minimum closed (R102). -/
inductive MinClosed where
  | running (expiry : Time)
  | elapsed
deriving DecidableEq, Repr

/-- The cause set (R115): each of the four causes at most once. -/
structure Causes where
  boom : Bool
  lamp : Bool
  start : Bool
  config : Bool
deriving DecidableEq, Repr

/-- The sequencer record (R102). The step timed by the step timer is the state itself. -/
structure Sequencer where
  state : SeqState
  closure : Half
  redStart : Option Time
  stepTimer : Option Time
  minClosed : Option MinClosed
  causes : Causes
  configMark : Bool
  proven : Bool
  secondTrain : Option Time
deriving DecidableEq, Repr

/-! ## Output supervisor -/

/-- The boom states (R126), in its order. -/
inductive BoomState where
  | up | lowering | down | raising | settling | stopped
deriving DecidableEq, Repr

/-- An order or a pending direction (R126): RAISE targets UP, LOWER targets DOWN. -/
inductive Order where
  | raise | lower
deriving DecidableEq, Repr

/-- The order source (R126). -/
inductive OrderSource where
  | sequencer | test
deriving DecidableEq, Repr

/-- A conditioned contact (R127). -/
structure BoomContact where
  made : Bool
  changed : Time
deriving DecidableEq, Repr

/-- The failure kinds of a stopped boom, a set (R126). -/
structure BoomFailures where
  timeout : Bool
  conflict : Bool
  displaced : Bool
deriving DecidableEq, Repr

/-- A boom record (R126), with the moment its order last changed. -/
structure Boom where
  state : BoomState
  order : Order
  /-- The moment the order last changed, as an uptime; the model's own, for the later of R135's two times (log 22). -/
  orderSince : Nat
  source : OrderSource
  pending : Option Order
  settleExpiry : Option Time
  travelExpiry : Option Time
  restMark : Option Time
  upContact : BoomContact
  downContact : BoomContact
  conflictSince : Option Time
  recoverySince : Option Time
  failures : BoomFailures
deriving DecidableEq, Repr

/-- The four boom records. -/
structure Booms where
  entry1 : Boom
  exit1 : Boom
  entry2 : Boom
  exit2 : Boom
deriving DecidableEq, Repr

/-- The condition of a lamp channel with the count that stands in it (R136). -/
inductive LampCondition where
  | proven (suspect : Nat)
  | failed (recovery : Nat)
deriving DecidableEq, Repr

/-- A channel record (R136); `whole` says that the channel has been driven the same way since the phase began (R138). -/
structure Lamp where
  condition : LampCondition
  stray : Bool
  dark : Nat
  lit : Bool
  underTest : Bool
  whole : Bool
deriving DecidableEq, Repr

/-- The six channel records. -/
structure Lamps where
  amber1 : Lamp
  redLeft1 : Lamp
  redRight1 : Lamp
  amber2 : Lamp
  redLeft2 : Lamp
  redRight2 : Lamp
deriving DecidableEq, Repr

/-- The two phases of the flash clock (R136). -/
inductive Phase where
  | one | two
deriving DecidableEq, Repr

/-- The flash clock (R136): the phase, its end, and whether the red channels flash. -/
structure FlashClock where
  phase : Phase
  phaseEnd : Time
  flashing : Bool
deriving DecidableEq, Repr

/-- The audible programmes (R143), in the order of R181. -/
inductive Programme where
  | silent | warning | secondTrain
deriving DecidableEq, Repr

/-- The tone sounding (R143): tone 1 or tone 2, the frequency driven in Hz, and its end time. -/
structure Tone where
  second : Bool
  hertz : Nat
  ends : Time
deriving DecidableEq, Repr

/-- The audible record (R143). -/
structure Audible where
  programme : Programme
  tone : Option Tone
  openCircuit : Bool
  coilCount : Nat
deriving DecidableEq, Repr

/-- A lamp test under way (R147). -/
structure LampTest where
  channel : Channel
  expiry : Time
deriving DecidableEq, Repr

/-- The output supervisor (R125 to R148). -/
structure Outputs where
  /-- Whether outputs are driven (R148). -/
  driven : Bool
  booms : Booms
  /-- The moment contact conditioning began (R127), as an uptime. -/
  conditionedFrom : Nat
  lamps : Lamps
  flash : FlashClock
  pulseTimer : Option Time
  pulse : Option Time
  lampTest : Option LampTest
  /-- The major lamp condition as last handed to the sequencer (R142). -/
  major : Bool
  audible : Audible
deriving DecidableEq, Repr

/-! ## Fault and notice unit -/

/-- The classes of fault (R150), in its order. -/
inductive FaultClass where
  | detection | sect | tracking | lamp | boom | audible | lane | supply | config
deriving DecidableEq, Repr

/-- The kinds of fault (R151), in its order. -/
inductive FaultKind where
  | sensorStuck | sensorImbalance | sectionDisturbed | movementTableFull | sectionListFull | shortWarning | longApproach
  | redLampOut | amberLampOut | lampStrayCurrent | boomTravelTimeout | boomContactConflict | boomDisplaced
  | audibleOpenCircuit | laneLost | laneDisagree | supplyWarn | supplyLow | partRestarted | configInvalid
  | storeWriteFailed | tableOverflow
deriving DecidableEq, Repr

/-- The severities (R150), in the order of R157. -/
inductive Severity where
  | minor | major | critical
deriving DecidableEq, Repr

/-- The subjects of faults (R150, R181). -/
inductive Subject where
  | head (h : HeadId)
  | sect (x : SectionId)
  | movement (number : Nat)
  | boom (b : BoomId)
  | lamp (c : Channel)
  | lane (l : Lane)
  | supply
  | audible
  | configuration
  | faultTable
deriving DecidableEq, Repr

/-- The states of a fault record (R150). -/
inductive FaultState where
  | active | acknowledged | cleared
deriving DecidableEq, Repr

/-- The kinds of reset (00_scope.md, Reset Kinds). -/
inductive ResetKind where
  | powerOn | supplyReset | restart
deriving DecidableEq, Repr

/-- A fault record (R150). Its class is that of its kind (R151) and is computed. -/
structure FaultRecord where
  id : Nat
  kind : FaultKind
  severity : Severity
  subject : Subject
  state : FaultState
  firstSeen : BitVec 32
  lastSeen : BitVec 32
  occurrences : Nat
  carriedOver : Bool
  detail : Option ResetKind
deriving DecidableEq, Repr

/-- The operating modes (R194), in the order of R181. -/
inductive Mode where
  | starting | unconfigured | normal | maintenance
deriving DecidableEq, Repr

/-- The supply states (R189), in the order of R181. -/
inductive SupplyState where
  | good | warn | low
deriving DecidableEq, Repr

/-- The contents of a CROSSING-STATUS (R163). -/
structure StatusNotice where
  state : SeqState
  closure : Half
  proven : Bool
  mode : Mode
  supply : SupplyState
  occupied : BitVec 4
  demand : BitVec 4
  seconds : BitVec 32
  /-- The reset kind and the previous reset kind, while the status carries the reset cause (R164). -/
  cause : Option (ResetKind × Option ResetKind)
deriving DecidableEq, Repr

/-- The notices (R162). -/
inductive Notice where
  | faultRaised (id : Nat) (kind : FaultKind) (subject : Subject) (severity : Severity) (seconds : BitVec 32)
  | faultCleared (id : Nat) (seconds : BitVec 32)
  | crossingStatus (status : StatusNotice)
  | movementPassed (number : Nat) (track : TrackId) (dir : Dir) (axles : Nat) (speed : Option Nat) (seconds : BitVec 32)
  | restored (x : SectionId) (track : TrackId) (kind : RestoreKind)
deriving DecidableEq, Repr

/-- The fault and notice unit (R150 to R170): the 31 ordinary positions, the overflow position, and the queue. -/
structure FaultUnit where
  table : Vector (Option FaultRecord) 31
  overflow : Option FaultRecord
  idCounter : Nat
  clearedOrder : List (Fin 31)
  masks : ClassSet
  sticky : ClassSet
  queue : List Notice
  overflowCount : Nat
deriving DecidableEq, Repr

/-! ## Request ports -/

/-- The outcomes of requests (00_scope.md, Outcomes of requests), in its order. -/
inductive ReplyOutcome where
  | done | frameError | refusedPort | refusedMode | refusedRange | refusedState | refusedStale | busy
deriving DecidableEq, Repr

/-- The reasons of a FRAME-ERROR (R174, R181), in their order. -/
inductive FrameReason where
  | length | short | long | check | code | form
deriving DecidableEq, Repr

/-- The attention modes (R179), in the order of their codes. -/
inductive AttentionMode where
  | off | notice | change | changeAndStep
deriving DecidableEq, Repr

/-- The six tables of a configuration, in the order of their codes (R181). -/
inductive TableId where
  | sections | map | profiles | heads | outputs | sequence
deriving DecidableEq, Repr

/-- An open load window (R172, R183). -/
structure LoadWindow where
  table : TableId
  first : Nat
  last : Nat
  position : Nat
deriving DecidableEq, Repr

/-- A port record (R172), with the end of the attention pulse in progress (R180, as an uptime) and the octets shifted out
after the first octet of the last transfer (R173). -/
structure PortRecord where
  reply : Option (List Octet)
  mode : AttentionMode
  line : Bool
  pulseEnd : Option Nat
  shifted : List Octet
deriving DecidableEq, Repr

/-- The four port records and the load window of the service port. -/
structure Ports where
  laneA : PortRecord
  laneB : PortRecord
  signaller : PortRecord
  service : PortRecord
  window : Option LoadWindow
deriving DecidableEq, Repr

/-! ## Configuration store, supply and start-up monitor -/

/-- The store state with the expiry that stands in it (R182). -/
inductive StoreState where
  | idle
  | reading (expiry : Time)
  | writing (expiry : Time)
deriving DecidableEq, Repr

/-- The configuration store (R182). -/
structure Store where
  staging : ConfigImage
  active : Option ConfigImage
  image : ConfigImage
  /-- The 32-bit check value held with the image. -/
  imageCheck : BitVec 32
  /-- Whether that check value holds over the image's contents. -/
  imageAgrees : Bool
  imageValid : Bool
  state : StoreState
deriving DecidableEq, Repr

/-- The supply and start-up monitor (R189 to R194). -/
structure Monitor where
  mode : Mode
  supply : SupplyState
  /-- The supply sense, in mV. -/
  sense : Nat
  /-- Whether the part is held in supply reset (R190). -/
  held : Bool
  resetKind : ResetKind
  previousKind : Option ResetKind
  /-- The expiry of the stabilisation wait (R192). -/
  stabilisation : Option Time
deriving DecidableEq, Repr

end Sys2Proof.Machine
end

