-- ==== Sys2Proof/Machine/ResetValues.lean ====
section
/-!
DEFINITION. The values the records take at a reset, block by block, as each chapter's reset table gives them, and the
built-in defaults of the configuration. `State.reset` and the meanings of POWER_ON, SUPPLY_RESET and RESTART use them.
-/
namespace Sys2Proof

/-! ## Configurations -/

/-- A blank SECTIONS entry: every octet 0 (R182). -/
def SectionEntry.blank : SectionEntry := ⟨0, 0, 0, 0, 0, 0⟩

/-- A blank PROFILES entry. -/
def ProfileEntry.blank : ProfileEntry := ⟨0, 0, 0, 0, 0, 0, 0⟩

/-- A blank configuration: every entry octet 0 (R182). -/
def ConfigImage.blank : ConfigImage where
  sections := Vector.replicate 10 SectionEntry.blank
  map := Vector.replicate 21 ⟨0, 0⟩
  profiles := Vector.replicate 16 ProfileEntry.blank
  heads := Vector.replicate 12 ⟨0, 0, 0, 0⟩
  outputs := Vector.replicate 8 ⟨0, 0, 0, 0⟩
  sequence := ⟨0, 0, 0, 0, 0, 0, 0, 0, 0, 0⟩

/-- The default HEADS entry (R1): 250 mm, 1.0 ms, both OCCUPIED-HIGH, 5.0 s. -/
def HeadEntry.default : HeadEntry := ⟨250, 10, 0, 50⟩

/-- The default SEQUENCE entry: R103, R125 (1.2 s), R86 (1000 ms), R47 (3.0 s), R99 (DUAL), masks clear (R160). -/
def SequenceEntry.default : SequenceEntry := ⟨3, 6, 8, 5, 12, 1000, 30, 0, 0, 0⟩

/-- The default OUTPUTS entries (R125): travel 12 s, 700 and 1000 Hz, 40 mA; 500, 500, 150, 150 ms; windows of 150 to
900 mA, and pulse windows of 40 to 300 mA in the red channels. -/
def OutputsEntry.defaults : Vector OutputsEntry 8 :=
  #v[⟨12, 700, 1000, 40⟩, ⟨500, 500, 150, 150⟩, ⟨150, 900, 0, 0⟩, ⟨150, 900, 40, 300⟩, ⟨150, 900, 40, 300⟩,
     ⟨150, 900, 0, 0⟩, ⟨150, 900, 40, 300⟩, ⟨150, 900, 40, 300⟩]

/-- What the blocks read while there is no active copy: no section, no map, and the defaults of R1, R103 and R125. -/
def ConfigImage.builtIn : ConfigImage where
  sections := Vector.replicate 10 SectionEntry.blank
  map := Vector.replicate 21 ⟨0, 0⟩
  profiles := Vector.replicate 16 ProfileEntry.blank
  heads := Vector.replicate 12 HeadEntry.default
  outputs := OutputsEntry.defaults
  sequence := SequenceEntry.default

end Sys2Proof

namespace Sys2Proof.Machine

/-! ## Blocks -/

/-- A sensor field as a reset leaves it and as R14 begins it: OCCUPIED since `t`. -/
def Sensor.assumed (t : Time) : Sensor := ⟨true, t, false⟩

/-- A head record after power-on and supply reset (R15). -/
def Head.initial : Head where
  failure := none
  decoder := .settling
  sensorA := Sensor.assumed 0
  sensorB := Sensor.assumed 0
  entrySide := none
  capture := none
  speed := none
  heldSide := none
  partials := 0
  quietSince := none
  lastPassage := none
  observedFrom := none

/-- A section record at every reset (R37). -/
def Section.initial : Section := ⟨none, 0, .disturbed, some .start, none, none, []⟩

/-- An unused section record (R18). -/
def Section.unused : Section := ⟨none, 0, .clear, none, none, none, []⟩

/-- The tracker at every reset (R59). -/
def Tracker.initial : Tracker := ⟨Vector.replicate 16 none, 1, 0⟩

/-- What the approach timer hands at every reset (R82). -/
def Approach.initial : Approach := ⟨false, false, false⟩

/-- A lane stance at every reset, and the Lane B stance emptied by SINGLE (R99, R100). -/
def LaneStance.initial : LaneStance := ⟨.notHeard, none, none, false, none, none⟩

/-- The stances after power-on and supply reset (R100). -/
def Stances.initial : Stances := ⟨LaneStance.initial, LaneStance.initial, false, false, false, false, none⟩

/-- The sequencer after power-on and supply reset (R123). -/
def Sequencer.initial : Sequencer where
  state := .failedClosed
  closure := 0
  redStart := none
  stepTimer := none
  minClosed := none
  causes := ⟨false, false, true, false⟩
  configMark := false
  proven := false
  secondTrain := none

/-- No failure kinds. -/
def BoomFailures.none : BoomFailures := ⟨false, false, false⟩

/-- A boom while outputs are off: reported LOWERING (R148), contacts OPEN until they have shown otherwise (R127). -/
def Boom.off : Boom where
  state := .lowering
  order := .lower
  orderSince := 0
  source := .sequencer
  pending := none
  settleExpiry := none
  travelExpiry := none
  restMark := none
  upContact := ⟨false, 0⟩
  downContact := ⟨false, 0⟩
  conflictSince := none
  recoverySince := none
  failures := BoomFailures.none

/-- A channel record with the values of R148, dark. -/
def Lamp.initial : Lamp := ⟨.proven 0, false, 0, false, false, true⟩

/-- The six channel records with the values of R148. -/
def Lamps.initial : Lamps :=
  ⟨Lamp.initial, Lamp.initial, Lamp.initial, Lamp.initial, Lamp.initial, Lamp.initial⟩

/-- The outputs from the start of a reset until they take effect (R148). -/
def Outputs.initial : Outputs where
  driven := false
  booms := ⟨Boom.off, Boom.off, Boom.off, Boom.off⟩
  conditionedFrom := 0
  lamps := Lamps.initial
  flash := ⟨.one, 0, false⟩
  pulseTimer := none
  pulse := none
  lampTest := none
  major := false
  audible := ⟨.silent, none, false, 0⟩

/-- The fault and notice unit after power-on and supply reset (R170). -/
def FaultUnit.initial : FaultUnit where
  table := Vector.replicate 31 none
  overflow := none
  idCounter := 1
  clearedOrder := []
  masks := 0
  sticky := 0
  queue := []
  overflowCount := 0

/-- A port record after a reset, with the attention mode it has then (R172). -/
def PortRecord.initial (m : AttentionMode) : PortRecord := ⟨none, m, false, none, []⟩

/-- The ports after power-on and supply reset (R172). -/
def Ports.initial : Ports where
  laneA := PortRecord.initial .changeAndStep
  laneB := PortRecord.initial .changeAndStep
  signaller := PortRecord.initial .notice
  service := PortRecord.initial .off
  window := none

/-- The store of a part whose image has never been written (DESIGN CHOICE, logs 4 and 28). -/
def Store.initial : Store := ⟨ConfigImage.blank, none, ConfigImage.blank, 0, false, false, .idle⟩

/-- The supply state taken afresh from the sense at the start of a reset (R189). -/
def SupplyState.fresh (sense : Nat) : SupplyState :=
  if sense > 22000 then .good else if sense ≥ 20500 then .warn else .low

/-- The length of the stabilisation wait in ms (R192). -/
def stabilisationMs : Time := 2000

/-- The monitor after power-on with the sense at `sense` mV (R191, R192). -/
def Monitor.initial (sense : Nat) : Monitor where
  mode := .starting
  supply := SupplyState.fresh sense
  sense := sense
  held := false
  resetKind := .powerOn
  previousKind := none
  stabilisation := some stabilisationMs

/-- The supply sense at `State.reset` in mV (DESIGN CHOICE, log 4): the value of the worked sequence. -/
def resetSense : Nat := 23500

end Sys2Proof.Machine
end

