-- ==== Sys2Proof/Machine/State.lean ====
section
/-!
DEFINITION. The whole state of the ZC-440 as plain data, the two ways a step can stop, the state after reset, and one
update per block, through which every operation writes.
-/
namespace Sys2Proof.Machine

/-- The state of the part: the eleven blocks, the time since start-up, and the queue of waiting commands. -/
structure State where
  /-- Hundredths of a millisecond since the last start-up; the crossing clock and the seconds count are read from it. -/
  uptime : Nat
  heads : Vector Head 12
  sections : Vector Section 10
  tracker : Tracker
  approach : Approach
  stances : Stances
  seq : Sequencer
  out : Outputs
  faults : FaultUnit
  ports : Ports
  store : Store
  mon : Monitor
  /-- The commands that wait, first in first out. -/
  pending : List Instr
deriving DecidableEq, Repr

/-- The ways a command can stop the machine with a fault: none. The spec gives every command of the table an effect in
every state, so no meaning raises a fault (log 32). Safe. -/
inductive Fault where
deriving DecidableEq, Repr

/-- The ways a command can be refused a meaning. -/
inductive Refusal where
  /-- Raised by an arm of `exec` for a command that has no meaning yet; no arm does so. Safe. -/
  | notModelled (mnemonic : String)
deriving DecidableEq, Repr

/-- The part right after power-on: every field at the value its chapter gives, and where none is given at the value that
log 4 names. -/
def State.reset : State where
  uptime := 0
  heads := Vector.replicate 12 Head.initial
  sections := Vector.replicate 10 Section.initial
  tracker := Tracker.initial
  approach := Approach.initial
  stances := Stances.initial
  seq := Sequencer.initial
  out := Outputs.initial
  faults := FaultUnit.initial
  ports := Ports.initial
  store := Store.initial
  mon := Monitor.initial resetSense
  pending := []

namespace State

/-- Update the head decoders. -/
def onHeads (s : State) (f : Vector Head 12 → Vector Head 12) : State := { s with heads := f s.heads }
/-- Update the section counter. -/
def onSections (s : State) (f : Vector Section 10 → Vector Section 10) : State := { s with sections := f s.sections }
/-- Update the movement tracker. -/
def onTracker (s : State) (f : Tracker → Tracker) : State := { s with tracker := f s.tracker }
/-- Update what the approach timer has handed. -/
def onApproach (s : State) (f : Approach → Approach) : State := { s with approach := f s.approach }
/-- Update the stance combiner. -/
def onStances (s : State) (f : Stances → Stances) : State := { s with stances := f s.stances }
/-- Update the crossing sequencer. -/
def onSeq (s : State) (f : Sequencer → Sequencer) : State := { s with seq := f s.seq }
/-- Update the output supervisor. -/
def onOut (s : State) (f : Outputs → Outputs) : State := { s with out := f s.out }
/-- Update the fault and notice unit. -/
def onFaults (s : State) (f : FaultUnit → FaultUnit) : State := { s with faults := f s.faults }
/-- Update the request ports. -/
def onPorts (s : State) (f : Ports → Ports) : State := { s with ports := f s.ports }
/-- Update the configuration store. -/
def onStore (s : State) (f : Store → Store) : State := { s with store := f s.store }
/-- Update the supply and start-up monitor. -/
def onMon (s : State) (f : Monitor → Monitor) : State := { s with mon := f s.mon }

end State

end Sys2Proof.Machine
end

