-- ==== Sys2Proof/Machine/Ops.lean ====
section
/-!
DEFINITION. The operations every block uses: the crossing clock and intervals on it, octets of numbers, the check value
of frames, the fault table and the notice queue (R150 to R165), and the three requests of a block to the fault table.
-/
namespace Sys2Proof.Machine

/-! ## Time -/

/-- The crossing-clock time at an uptime: whole milliseconds, wrapping at 32 bits (00_scope.md, Units). -/
def clockAt (uptime : Nat) : Time := BitVec.ofNat 32 (uptime / 100)

/-- A crossing-clock time at 0.01 ms (R3). -/
def fineAt (uptime : Nat) : FineTime := ⟨clockAt uptime, uptime % 100⟩

/-- The interval from `t` to `now` in milliseconds, taken across the wrap of the clock. -/
def since (now t : Time) : Nat := (now - t).toNat

/-- The clock at `now` has reached the expiry `t`; every interval in use is below half the range of the clock (R66). -/
def reached (now t : Time) : Bool := !(now - t).msb

/-- The time `ms` milliseconds after `t`. -/
def after (t : Time) (ms : Nat) : Time := t + BitVec.ofNat 32 ms

/-- The interval between two times at 0.01 ms, in hundredths of a millisecond, across the wrap (R6). -/
def fineInterval (later earlier : FineTime) : Nat :=
  since later.ms earlier.ms * 100 + later.frac - earlier.frac

namespace State

/-- The crossing clock. -/
def now (s : State) : Time := clockAt s.uptime

/-- The seconds count (R150). Past its bound it is a free value (log 6). -/
def seconds (s : State) : BitVec 32 :=
  if s.uptime / 100000 < 4294967296 then BitVec.ofNat 32 (s.uptime / 100000) else Config.secondsBeyond (s.uptime / 100000)

/-- The time moves on by `dt` hundredths of a millisecond. -/
def advance (s : State) (dt : Nat) : State := { s with uptime := s.uptime + dt }

/-- The configuration the blocks read: the active copy, or the built-in defaults while there is none (R1, R103, R125). -/
def cfg (s : State) : ConfigImage := s.store.active.getD ConfigImage.builtIn

end State

/-! ## Octets -/

/-- A number in two octets, most significant first (R181). -/
def half (n : Half) : List Octet := [n.extractLsb' 8 8, n.extractLsb' 0 8]

/-- A number in four octets, most significant first (R181). -/
def word (n : BitVec 32) : List Octet := [n.extractLsb' 24 8, n.extractLsb' 16 8, n.extractLsb' 8 8, n.extractLsb' 0 8]

/-- A natural number in one octet. -/
def octet (n : Nat) : Octet := BitVec.ofNat 8 n

/-- A flag in one octet, or in bit 0 of one. -/
def flag (b : Bool) : Nat := b.toNat

/-- A set of flags in bits from bit 0 in the order listed (R181). -/
def flags : List Bool → Nat
  | [] => 0
  | b :: bs => b.toNat + 2 * flags bs

/-- One bit into the check register: the generator is x^16 + x^12 + x^5 + 1 (R174). -/
def crcBit (r : Half) (b : Bool) : Half :=
  let shifted := r <<< 1
  if r.msb ^^ b then shifted ^^^ 0x1021#16 else shifted

/-- One octet into the check register, most significant bit first (R174). -/
def crcOctet (r : Half) (o : Octet) : Half :=
  crcBit (crcBit (crcBit (crcBit (crcBit (crcBit (crcBit (crcBit r o[7]) o[6]) o[5]) o[4]) o[3]) o[2]) o[1]) o[0]

/-- The check value over octets: the register starts at FFFF, no inversion of the result (R174). -/
def crc (octets : List Octet) : Half := octets.foldl crcOctet 0xFFFF#16

/-! ## Fault classes, severities -/

/-- The class of a kind of fault (R151). -/
def FaultKind.cls : FaultKind → FaultClass
  | .sensorStuck | .sensorImbalance => .detection
  | .sectionDisturbed => .sect
  | .movementTableFull | .sectionListFull | .shortWarning | .longApproach => .tracking
  | .redLampOut | .amberLampOut | .lampStrayCurrent => .lamp
  | .boomTravelTimeout | .boomContactConflict | .boomDisplaced => .boom
  | .audibleOpenCircuit => .audible
  | .laneLost | .laneDisagree => .lane
  | .supplyWarn | .supplyLow | .partRestarted => .supply
  | .configInvalid | .storeWriteFailed | .tableOverflow => .config

/-- The severity of a kind of fault (R151); RED-LAMP-OUT takes the one the raising block names, MINOR standing here for
it. -/
def FaultKind.severity : FaultKind → Severity
  | .longApproach | .redLampOut | .amberLampOut | .audibleOpenCircuit | .laneDisagree | .supplyWarn | .partRestarted =>
    .minor
  | .configInvalid => .critical
  | .sensorStuck | .sensorImbalance | .sectionDisturbed | .movementTableFull | .sectionListFull | .shortWarning
  | .lampStrayCurrent | .boomTravelTimeout | .boomContactConflict | .boomDisplaced | .laneLost | .supplyLow
  | .storeWriteFailed | .tableOverflow => .major

/-- The code of a class, its bit in a set of classes (R181). -/
def FaultClass.code : FaultClass → Nat
  | .detection => 0 | .sect => 1 | .tracking => 2 | .lamp => 3 | .boom => 4 | .audible => 5 | .lane => 6 | .supply => 7
  | .config => 8

/-- The code of a severity, its place in the order of R157. -/
def Severity.code : Severity → Nat
  | .minor => 0 | .major => 1 | .critical => 2

/-- The set holding one class. -/
def FaultClass.bit (c : FaultClass) : ClassSet := 1#9 <<< c.code

/-- Whether a class is in a set of classes. -/
def FaultClass.inSet (c : FaultClass) (m : ClassSet) : Bool := m.getLsbD c.code

/-- The next of the numbers 1 to 255 that is not in use, counting on from `start` and from 255 to 1, never using 0 (R41,
R152). -/
def nextFree (start : Nat) (inUse : Nat → Bool) : Nat :=
  (((List.range 255).map fun k => (start + 254 + k) % 255 + 1).find? fun n => !inUse n).getD start

/-- The counter's value after a number is taken: 255 is followed by 1 (R41, R152). -/
def counterAfter (n : Nat) : Nat := if n < 255 then n + 1 else 1

/-! ## The notice queue -/

/-- The number of notices the queue holds (R162). -/
def queueCapacity : Nat := 24

/-- Whether a notice is a CROSSING-STATUS. -/
def Notice.isStatus : Notice → Bool
  | .crossingStatus _ => true
  | _ => false

/-- Whether a notice is a MOVEMENT-PASSED. -/
def Notice.isPassed : Notice → Bool
  | .movementPassed .. => true
  | _ => false

/-- The size of a notice in octets (R162). -/
def Notice.size : Notice → Nat
  | .faultRaised .. => 10
  | .faultCleared .. => 6
  | .crossingStatus st => if st.cause.isSome then 14 else 12
  | .movementPassed .. => 8
  | .restored .. => 4

/-- Replace the first CROSSING-STATUS of a queue, in its place; the reset cause of the old one goes over (R164). -/
def combineStatus (st : StatusNotice) : List Notice → List Notice
  | [] => []
  | .crossingStatus old :: rest =>
    .crossingStatus (if old.cause.isSome then { st with cause := old.cause } else st) :: rest
  | n :: rest => n :: combineStatus st rest

namespace FaultUnit

/-- Add a notice at the tail (R165): with 24 queued the oldest MOVEMENT-PASSED makes room; with none, the notice is
discarded and counted, the count staying at 255. -/
def append (u : FaultUnit) (n : Notice) : FaultUnit :=
  if u.queue.length < queueCapacity then { u with queue := u.queue ++ [n] }
  else if u.queue.any Notice.isPassed then { u with queue := u.queue.eraseP Notice.isPassed ++ [n] }
  else { u with overflowCount := min 255 (u.overflowCount + 1) }

/-- Queue a CROSSING-STATUS (R164): it replaces the queued one, or is added at the tail. -/
def queueStatus (u : FaultUnit) (st : StatusNotice) : FaultUnit :=
  if u.queue.any Notice.isStatus then { u with queue := combineStatus st u.queue } else u.append (.crossingStatus st)

/-- A notice about a fault of this class and severity is masked (R160). -/
def masked (u : FaultUnit) (c : FaultClass) (sev : Severity) : Bool :=
  sev == .minor && c.inSet u.masks

/-- Set the sticky flag of a class (R161). -/
def stick (u : FaultUnit) (c : FaultClass) : FaultUnit := { u with sticky := u.sticky ||| c.bit }

/-! ## The fault table -/

/-- The record of a kind and subject with its ordinary position (R153). -/
def find (u : FaultUnit) (k : FaultKind) (x : Subject) : Option (Fin 31 × FaultRecord) :=
  (List.finRange 31).findSome? fun p =>
    match u.table[p] with
    | some r => if r.kind = k ∧ r.subject = x then some (p, r) else none
    | none => none

/-- The lowest-numbered empty ordinary position (R152). -/
def freePosition (u : FaultUnit) : Option (Fin 31) :=
  (List.finRange 31).find? fun p => (u.table[p]).isNone

/-- The records of the whole table, the overflow record last. -/
def records (u : FaultUnit) : List FaultRecord := u.table.toList.filterMap id ++ u.overflow.toList

/-- Whether some record of the table holds a fault id. -/
def idInUse (u : FaultUnit) (n : Nat) : Bool := u.records.any fun r => r.id == n

/-- Write a record at an ordinary position. -/
def write (u : FaultUnit) (p : Fin 31) (r : FaultRecord) : FaultUnit := { u with table := u.table.set p (some r) }

/-- Empty an ordinary position. -/
def erase (u : FaultUnit) (p : Fin 31) : FaultUnit := { u with table := u.table.set p none }

/-- Queue the FAULT-RAISED of a record, unless it is masked (R153, R154, R157, R160). -/
def announce (u : FaultUnit) (r : FaultRecord) (t : BitVec 32) : FaultUnit :=
  if u.masked r.kind.cls r.severity then u else u.append (.faultRaised r.id r.kind r.subject r.severity t)

/-- Queue the FAULT-CLEARED of a record, unless it is masked (R156, R160). -/
def announceCleared (u : FaultUnit) (r : FaultRecord) (t : BitVec 32) : FaultUnit :=
  if u.masked r.kind.cls r.severity then u else u.append (.faultCleared r.id t)

/-- Count a fault that finds no place in the overflow record (R155). -/
def countOverflow (u : FaultUnit) (t : BitVec 32) : FaultUnit :=
  let u := u.stick .config
  match u.overflow with
  | none =>
    let n := nextFree u.idCounter u.idInUse
    let r : FaultRecord := ⟨n, .tableOverflow, .major, .faultTable, .active, t, t, 1, false, none⟩
    ({ u with overflow := some r, idCounter := counterAfter n } : FaultUnit).append
      (.faultRaised r.id r.kind r.subject r.severity t)
  | some old =>
    let r := { old with
      lastSeen := t
      occurrences := min 255 (old.occurrences + 1)
      state := if old.state = FaultState.cleared then .active else old.state }
    ({ u with overflow := some r } : FaultUnit).append (.faultRaised r.id r.kind r.subject r.severity t)

/-- Put a new record at an empty ordinary position, with a fault id drawn by R152 (R154, R159). -/
def placeAt (u : FaultUnit) (p : Fin 31) (t : BitVec 32) (k : FaultKind) (x : Subject) (sev : Severity) (st : FaultState)
    (d : Option ResetKind) : FaultUnit :=
  let n := nextFree u.idCounter u.idInUse
  let r : FaultRecord := ⟨n, k, sev, x, st, t, t, 1, false, d⟩
  let u := { u.write p r with
    idCounter := counterAfter n
    clearedOrder := if st = FaultState.cleared then u.clearedOrder ++ [p] else u.clearedOrder }
  u.announce r t

/-- A raise that finds no record (R154): an empty position, else the place of the first CLEARED record, else the
overflow record. The evicted record leaves, and its id is released, before the new record's id is drawn, so that the id is the
new record's where the counter stands at it: R152 and R154 give no order, and this one is the model's choice (log 47). -/
def create (u : FaultUnit) (t : BitVec 32) (k : FaultKind) (x : Subject) (sev : Severity) (st : FaultState)
    (d : Option ResetKind) : FaultUnit :=
  match u.freePosition with
  | some p => u.placeAt p t k x sev st d
  | none =>
    match u.clearedOrder with
    | p :: rest => ({ u.erase p with clearedOrder := rest } : FaultUnit).placeAt p t k x sev st d
    | [] => u.countOverflow t

/-- Re-grade (R157). -/
def regrade (u : FaultUnit) (t : BitVec 32) (k : FaultKind) (x : Subject) (sev : Severity) : FaultUnit :=
  match u.find k x with
  | none => u
  | some (p, r) =>
    if r.state = FaultState.cleared ∨ r.severity = sev then u
    else
      let higher := r.severity.code < sev.code
      let r' := { r with severity := sev, state := if higher then .active else r.state }
      let u := if higher then u.stick k.cls else u
      (u.write p r').announce r' t

/-- A raise that finds a record (R153): a repeat. -/
def repeatRaise (u : FaultUnit) (p : Fin 31) (r : FaultRecord) (t : BitVec 32) (sev : Severity) : FaultUnit :=
  let r := { r with lastSeen := t, occurrences := min 255 (r.occurrences + 1) }
  if r.state = FaultState.cleared then
    let r := { r with state := .active, severity := sev }
    ({ u.write p r with clearedOrder := u.clearedOrder.filter (· ≠ p) } : FaultUnit).announce r t
  else (u.write p r).regrade t r.kind r.subject sev

/-- Raise a fault (R153, R154, R161). -/
def raise (u : FaultUnit) (t : BitVec 32) (k : FaultKind) (x : Subject) (sev : Severity) : FaultUnit :=
  let u := u.stick k.cls
  match u.find k x with
  | some (p, r) => u.repeatRaise p r t sev
  | none => u.create t k x sev .active none

/-- A CLEARED record of a kind and subject leaves the table, as at an eviction: its id is released, its position is empty, and no
notice is queued (R154, log 42). -/
def giveUp (u : FaultUnit) (k : FaultKind) (x : Subject) : FaultUnit :=
  match u.find k x with
  | some (p, r) =>
    if r.state = FaultState.cleared then { u.erase p with clearedOrder := u.clearedOrder.filter (· ≠ p) } else u
  | none => u

/-- A movement number is given to a new movement: the CLEARED records of the earlier movement that held it leave the table, so
that a fault of the new one finds no record of its subject (R153) and makes a new record (R80, R154, log 42). -/
def giveNumber (u : FaultUnit) (n : Nat) : FaultUnit :=
  (u.giveUp .shortWarning (.movement n)).giveUp .longApproach (.movement n)

/-- The overflow record is cleared when an ordinary record leaves ACTIVE and ACKNOWLEDGED (R155, R156). -/
def clearOverflow (u : FaultUnit) (t : BitVec 32) : FaultUnit :=
  match u.overflow with
  | none => u
  | some r =>
    match r.state with
    | .active => ({ u with overflow := some { r with state := .cleared } } : FaultUnit).announceCleared r t
    | .acknowledged => ({ u with overflow := none } : FaultUnit).announceCleared r t
    | .cleared => u

/-- Clear a fault (R156). -/
def clear (u : FaultUnit) (t : BitVec 32) (k : FaultKind) (x : Subject) : FaultUnit :=
  match u.find k x with
  | none => u
  | some (p, r) =>
    match r.state with
    | .active =>
      let u := { u.write p { r with state := .cleared } with clearedOrder := u.clearedOrder ++ [p] }
      (u.announceCleared r t).clearOverflow t
    | .acknowledged => ((u.erase p).announceCleared r t).clearOverflow t
    | .cleared => u

/-- Record PART-RESTARTED, directly CLEARED (R159). -/
def partRestarted (u : FaultUnit) (t : BitVec 32) (d : ResetKind) : FaultUnit :=
  let u := u.stick .supply
  match u.find .partRestarted .supply with
  | none => u.create t .partRestarted .supply .minor .cleared (some d)
  | some (p, r) =>
    let r := { r with lastSeen := t, occurrences := min 255 (r.occurrences + 1), detail := some d, state := .cleared }
    ({ u.write p r with clearedOrder := u.clearedOrder.filter (· ≠ p) ++ [p] } : FaultUnit).announce r t

/-- The state of a record after an acknowledgement (R158): absent when it leaves the table. -/
def FaultRecord.acknowledged (r : FaultRecord) : Option FaultRecord :=
  if r.state = FaultState.cleared then none else some { r with state := .acknowledged }

/-- Acknowledge the record that holds a fault id (R158): the unit after it, and the record's state, absent where it has
left the table. No result when no record holds the id. -/
def acknowledge (u : FaultUnit) (n : Nat) : Option (FaultUnit × Option FaultState) :=
  match (List.finRange 31).findSome? (fun p => match u.table[p] with
    | some r => if r.id = n then some (p, r) else none
    | none => none) with
  | some (p, r) =>
    match FaultRecord.acknowledged r with
    | some r' => some (u.write p r', some r'.state)
    | none => some ({ u.erase p with clearedOrder := u.clearedOrder.filter (· ≠ p) }, none)
  | none =>
    match u.overflow with
    | some r =>
      if r.id = n then
        let r' := FaultRecord.acknowledged r
        some ({ u with overflow := r' }, r'.map FaultRecord.state)
      else none
    | none => none

/-- A kept record at a restart (R170): times 0, carried over. -/
def FaultRecord.carried (r : FaultRecord) : FaultRecord := { r with firstSeen := 0, lastSeen := 0, carriedOver := true }

/-- The unit at a restart (R170): records, cleared order, id counter and masks kept; flags, queue and count emptied. -/
def restarted (u : FaultUnit) : FaultUnit :=
  { u with
    table := Vector.ofFn fun p : Fin 31 => u.table[p].map FaultRecord.carried
    overflow := u.overflow.map FaultRecord.carried
    sticky := 0
    queue := []
    overflowCount := 0 }

end FaultUnit

/-! ## The fault unit as the blocks reach it -/

namespace State

/-- A block raises a fault at the severity named. No fault is raised while the mode is STARTING (R148, R170, R189). -/
def raiseAt (s : State) (k : FaultKind) (x : Subject) (sev : Severity) : State :=
  if s.mon.mode = Mode.starting then s else s.onFaults fun u => u.raise s.seconds k x sev

/-- A block raises a fault at the severity of its kind (R151). -/
def raise (s : State) (k : FaultKind) (x : Subject) : State := s.raiseAt k x k.severity

/-- A block clears a fault (R156); not in STARTING (R170). -/
def clear (s : State) (k : FaultKind) (x : Subject) : State :=
  if s.mon.mode = Mode.starting then s else s.onFaults fun u => u.clear s.seconds k x

/-- A block re-grades a fault (R157); not in STARTING (R170). -/
def regrade (s : State) (k : FaultKind) (x : Subject) (sev : Severity) : State :=
  if s.mon.mode = Mode.starting then s else s.onFaults fun u => u.regrade s.seconds k x sev

/-- Queue a notice other than a CROSSING-STATUS (R165); none in STARTING (R170). -/
def notice (s : State) (n : Notice) : State :=
  if s.mon.mode = Mode.starting then s else s.onFaults fun u => u.append n

end State

end Sys2Proof.Machine
end

