-- ==== Sys2Proof/Machine/Configuration.lean ====
section
/-!
DEFINITION. What the blocks read in a configuration: the section map and profiles (R62, R63), the places of sections and
heads (R18, R19), the times and parameters (R1, R103, R125); the eleven commit checks (R186); and the octets of entries
(R181).
-/
namespace Sys2Proof

/-- The octet at a place of a list, 0 where the list ends before it. -/
def octetAt (l : List Octet) (k : Nat) : Octet := l.getD k 0

/-- The number of two octets at a place of a list, most significant first (R181). -/
def halfAt (l : List Octet) (k : Nat) : Half := octetAt l k ++ octetAt l (k + 1)

/-- The direction toward the island from an approach of a side: AB from side A, BA from side B (R62). -/
def Side.toward : Side → Dir
  | .a => .ab
  | .b => .ba

/-- The opposite side. -/
def Side.other : Side → Side
  | .a => .b
  | .b => .a

/-- The side that travel in a direction comes from: A for AB (R19). -/
def Dir.behind : Dir → Side
  | .ab => .a
  | .ba => .b

/-- The side that travel in a direction goes to: B for AB (R19). -/
def Dir.before : Dir → Side
  | .ab => .b
  | .ba => .a

/-- The opposite direction. -/
def Dir.opposite : Dir → Dir
  | .ab => .ba
  | .ba => .ab

namespace ConfigImage

/-! ## Times of the SEQUENCE table, in ms -/

/-- Amber time (R103). -/
def amberMs (c : ConfigImage) : Nat := c.sequence.amber.toNat * 1000
/-- Boom delay (R103). -/
def boomDelayMs (c : ConfigImage) : Nat := c.sequence.boomDelay.toNat * 1000
/-- Exit wait (R103). -/
def exitWaitMs (c : ConfigImage) : Nat := c.sequence.exitWait.toNat * 1000
/-- Minimum closed time (R103). -/
def minimumClosedMs (c : ConfigImage) : Nat := c.sequence.minimumClosed.toNat * 1000
/-- Half the flash period, the length of a phase (R136); the period is in tenths of a second. -/
def phaseMs (c : ConfigImage) : Nat := c.sequence.flashPeriod.toNat * 50
/-- Lane contact time (R86). -/
def laneContactMs (c : ConfigImage) : Nat := c.sequence.laneContact.toNat
/-- Coupling gap (R47), in tenths of a second in the table. -/
def couplingGapMs (c : ConfigImage) : Nat := c.sequence.couplingGap.toNat * 100
/-- The lane arrangement is DUAL (R99). -/
def dual (c : ConfigImage) : Bool := c.sequence.arrangement == 0
/-- Compact map mode (R62). -/
def compact (c : ConfigImage) : Bool := c.sequence.compact != 0
/-- The default masks (R160). -/
def defaultMasks (c : ConfigImage) : ClassSet := c.sequence.defaultMasks.setWidth 9

/-! ## Heads -/

/-- Sensor spacing in mm (R1). -/
def spacing (c : ConfigImage) (h : HeadId) : Nat := c.heads[h].spacing.toNat
/-- Debounce in hundredths of a ms (R1); the table holds tenths. -/
def debounce (c : ConfigImage) (h : HeadId) : Nat := c.heads[h].debounce.toNat * 10
/-- Stuck limit in ms (R1); the table holds tenths of a second. -/
def stuckMs (c : ConfigImage) (h : HeadId) : Nat := c.heads[h].stuckLimit.toNat * 100
/-- The raw level that means occupied at one sensor (R1, R2); a polarity bit is set for OCCUPIED-LOW (R181). -/
def occupiedLevel (c : ConfigImage) (h : HeadId) (x : Side) : Level :=
  if c.heads[h].polarities.getLsbD (match x with | .a => 0 | .b => 1) then .low else .high

/-! ## The section map and the profiles -/

/-- The MAP entry of a section in a direction: 2n for AB, 2n + 1 for BA (R181). -/
def mapIndex (x : SectionId) (d : Dir) : Fin 21 :=
  ⟨2 * x.val + (match d with | .ab => 0 | .ba => 1), by cases d <;> simp <;> omega⟩

/-- The attribute record of an entry, the default one in compact map mode (R62). -/
def attributesAt (c : ConfigImage) (i : Fin 21) : Octet :=
  if c.compact then c.map[20].attributes else c.map[i].attributes

/-- The profile of an entry, the one its index names (R63). -/
def profileAt (c : ConfigImage) (i : Fin 21) : ProfileEntry :=
  c.profiles[(⟨c.map[i].profile.toNat % 16, Nat.mod_lt _ (by decide)⟩ : Fin 16)]

/-- Attribute AUTO (R62). -/
def auto (c : ConfigImage) (i : Fin 21) : Bool := (c.attributesAt i).getLsbD 0
/-- Attribute TIMED (R62). -/
def timed (c : ConfigImage) (i : Fin 21) : Bool := (c.attributesAt i).getLsbD 1
/-- Attribute HALT (R62). -/
def halt (c : ConfigImage) (i : Fin 21) : Bool := (c.attributesAt i).getLsbD 2
/-- Attribute PROTECTING (R62). -/
def protecting (c : ConfigImage) (i : Fin 21) : Bool := (c.attributesAt i).getLsbD 3

/-! ## Outputs -/

/-- Travel limit in ms (R125). -/
def travelMs (c : ConfigImage) : Nat := c.outputs[0].w0.toNat * 1000
/-- The frequency of tone 1 or tone 2 in Hz (R125). -/
def toneHertz (c : ConfigImage) (second : Bool) : Nat := if second then c.outputs[0].w2.toNat else c.outputs[0].w1.toNat
/-- The audible current threshold in mA (R125). -/
def audibleThreshold (c : ConfigImage) : Nat := c.outputs[0].w3.toNat
/-- The duration of tone 1 or tone 2 of the WARNING pattern, in ms (R125). -/
def warningMs (c : ConfigImage) (second : Bool) : Nat := if second then c.outputs[1].w1.toNat else c.outputs[1].w0.toNat
/-- The duration of tone 1 or tone 2 of the SECOND-TRAIN pattern, in ms (R125). -/
def secondTrainMs (c : ConfigImage) (second : Bool) : Nat :=
  if second then c.outputs[1].w3.toNat else c.outputs[1].w2.toNat

end ConfigImage

/-- The OUTPUTS entry of a channel, in the order of R136 (R181). -/
def Channel.entry : Channel → Fin 8
  | .amber1 => 2 | .redLeft1 => 3 | .redRight1 => 4 | .amber2 => 5 | .redLeft2 => 6 | .redRight2 => 7

namespace ConfigImage

/-- A current lies within a channel's current window, the limits included (R138). -/
def inWindow (c : ConfigImage) (ch : Channel) (mA : Nat) : Bool :=
  c.outputs[ch.entry].w0.toNat ≤ mA && mA ≤ c.outputs[ch.entry].w1.toNat

/-- A current lies within a channel's pulse window (R141). -/
def inPulseWindow (c : ConfigImage) (ch : Channel) (mA : Nat) : Bool :=
  c.outputs[ch.entry].w2.toNat ≤ mA && mA ≤ c.outputs[ch.entry].w3.toNat

end ConfigImage

/-! ## The place of a section -/

/-- The entry describes a section of the installation (R18). -/
def SectionEntry.isUsed (e : SectionEntry) : Bool := e.used != 0

/-- The head an octet names, for an octet that passes check 1. -/
def headOf (o : Octet) : HeadId := ⟨o.toNat % 12, Nat.mod_lt _ (by decide)⟩

/-- The fields a section takes from its entry (R18); none when the entry is marked unused. -/
def SectionEntry.place (e : SectionEntry) : Option Machine.Place :=
  if e.isUsed then
    some
      { track := ⟨(e.track.toNat - 1) % 4, Nat.mod_lt _ (by decide)⟩
        role := if e.role == 0 then .island else .approach (if e.side == 0 then .a else .b)
        aHead := headOf e.aHead
        bHead := headOf e.bHead }
  else none

/-! ## The commit checks (R186) -/

/-- A number lies in a range, the limits included. -/
def within (n lo hi : Nat) : Bool := lo ≤ n && n ≤ hi

namespace ConfigImage

/-- The used sections of a configuration, in order. -/
def usedSections (c : ConfigImage) : List SectionId := (List.finRange 10).filter fun x => c.sections[x].isUsed

/-- The sections of one track, by the track octet of their entries. -/
def sectionsOf (c : ConfigImage) (t : Octet) : List SectionId := c.usedSections.filter fun x => c.sections[x].track == t

/-- An entry fails check 1. -/
def entryFails1 (e : SectionEntry) : Bool :=
  e.used.toNat > 1 ||
  (e.used == 1 &&
    (!within e.track.toNat 1 4 || e.role.toNat > 1 || e.side.toNat > 1 || e.aHead.toNat > 11 || e.bHead.toNat > 11))

/-- Check 1: octets of the SECTIONS entries. -/
def fails1 (c : ConfigImage) : Bool := (List.finRange 10).any fun x => entryFails1 c.sections[x]

/-- Check 2: a section is used, and each track with a section has one ISLAND and at most four sections. -/
def fails2 (c : ConfigImage) : Bool :=
  c.usedSections.isEmpty ||
  c.usedSections.any fun x =>
    let xs := c.sectionsOf c.sections[x].track
    (xs.filter fun y => c.sections[y].role == 0).length != 1 || xs.length > 4

/-- The section after `x` toward the B end, among `xs`: its A-end head is the B-end head of `x` (R19). -/
def nextIn (c : ConfigImage) (xs : List SectionId) (x : SectionId) : Option SectionId :=
  xs.find? fun y => c.sections[y].aHead == c.sections[x].bHead

/-- The chain from `x` toward the B end, at most `fuel` sections long. -/
def chainFrom (c : ConfigImage) (xs : List SectionId) : Nat → SectionId → List SectionId
  | 0, _ => []
  | fuel + 1, x =>
    match c.nextIn xs x with
    | some y => x :: c.chainFrom xs fuel y
    | none => [x]

/-- The first section of a track's chain: no section of the track ends where it begins (R19). -/
def chainHead (c : ConfigImage) (xs : List SectionId) : Option SectionId :=
  xs.find? fun x => !xs.any fun y => c.sections[y].bHead == c.sections[x].aHead

/-- The sections of a chain lie on the sides they name: side A before the island, side B after it (R19). -/
def sidesHold (c : ConfigImage) : Octet → List SectionId → Bool
  | _, [] => true
  | expected, x :: xs =>
    if c.sections[x].role == 0 then c.sidesHold 1 xs
    else c.sections[x].side == expected && c.sidesHold expected xs

/-- Check 3: different end heads, one chain per track, approaches on their sides (R19). A chain that comes back to one of its own
heads is left to check 4 (log 45). -/
def fails3 (c : ConfigImage) : Bool :=
  c.usedSections.any fun x =>
    let xs := c.sectionsOf c.sections[x].track
    c.sections[x].aHead == c.sections[x].bHead ||
    (match c.chainHead xs with
      | none => true
      | some first =>
        let chain := c.chainFrom xs xs.length first
        chain.length != xs.length || xs.any (fun y => !chain.contains y) || !c.sidesHold 0 chain)

/-- Check 4: a head ends at most one section on each side, and its two sections belong to one track. -/
def fails4 (c : ConfigImage) : Bool :=
  c.usedSections.any fun x => c.usedSections.any fun y =>
    (x != y && (c.sections[x].aHead == c.sections[y].aHead || c.sections[x].bHead == c.sections[y].bHead)) ||
    (c.sections[x].bHead == c.sections[y].aHead && c.sections[x].track != c.sections[y].track)

/-- Check 5: the HEADS entries. -/
def fails5 (c : ConfigImage) : Bool :=
  (List.finRange 12).any fun h =>
    let e := c.heads[h]
    !within e.spacing.toNat 100 500 || !within e.debounce.toNat 2 50 || !within e.stuckLimit.toNat 5 100 ||
    e.polarities.toNat > 3

/-- Check 6: the MAP entries, 0 to 20. -/
def fails6 (c : ConfigImage) : Bool :=
  (List.finRange 21).any fun i => c.map[i].profile.toNat > 15 || c.map[i].attributes.toNat > 15

/-- Check 7: the profiles of used islands, in either direction. -/
def fails7 (c : ConfigImage) : Bool :=
  c.usedSections.any fun x =>
    c.sections[x].role == 0 &&
    [Dir.ab, Dir.ba].any fun d => !within (c.profileAt (mapIndex x d)).minimumWarning.toNat 15 90

/-- The profile of the toward entry of a used approach. -/
def towardProfile (c : ConfigImage) (x : SectionId) : ProfileEntry :=
  c.profileAt (mapIndex x (if c.sections[x].side == 0 then .ab else .ba))

/-- The used approaches. -/
def usedApproaches (c : ConfigImage) : List SectionId := c.usedSections.filter fun x => c.sections[x].role != 0

/-- Check 8: the profiles of used approaches. -/
def fails8 (c : ConfigImage) : Bool :=
  c.usedApproaches.any fun x =>
    let p := c.towardProfile x
    !within p.length.toNat 50 5000 || !within p.minimumWarning.toNat 15 90 ||
    !within p.maximumApproach.toNat 30 600 || p.raiseMargin.toNat > 60 || p.haltGrace.toNat > 300 ||
    !(p.advanceHead.toNat ≤ 11 || p.advanceHead == 0xFF)

/-- Check 9: the advance heads and advance distances of those profiles. -/
def fails9 (c : ConfigImage) : Bool :=
  c.usedApproaches.any fun x =>
    let p := c.towardProfile x
    p.advanceHead != 0xFF &&
    (c.usedSections.any (fun y => c.sections[y].aHead == p.advanceHead || c.sections[y].bHead == p.advanceHead) ||
      !within p.advanceDistance.toNat 20 5000 || p.advanceDistance.toNat ≥ p.length.toNat)

/-- A tone duration lies outside 100 to 2000 ms in steps of 10 ms (R125). -/
def durationFails (d : Half) : Bool := !within d.toNat 100 2000 || d.toNat % 10 != 0

/-- A channel's OUTPUTS entry fails check 10. -/
def channelFails (e : OutputsEntry) (red : Bool) : Bool :=
  !within e.w0.toNat 20 1500 || e.w1.toNat ≤ e.w0.toNat || e.w1.toNat > 2000 ||
  (if red then !within e.w2.toNat 5 400 || e.w3.toNat ≤ e.w2.toNat || e.w3.toNat > 500
   else e.w2 != 0 || e.w3 != 0)

/-- Check 10: the OUTPUTS values. -/
def fails10 (c : ConfigImage) : Bool :=
  !within c.outputs[0].w0.toNat 6 20 || !within c.outputs[0].w1.toNat 300 2000 ||
  !within c.outputs[0].w2.toNat 300 2000 || !within c.outputs[0].w3.toNat 10 500 ||
  durationFails c.outputs[1].w0 || durationFails c.outputs[1].w1 || durationFails c.outputs[1].w2 ||
  durationFails c.outputs[1].w3 ||
  channelFails c.outputs[2] false || channelFails c.outputs[3] true || channelFails c.outputs[4] true ||
  channelFails c.outputs[5] false || channelFails c.outputs[6] true || channelFails c.outputs[7] true

/-- Check 11: the SEQUENCE values. -/
def fails11 (c : ConfigImage) : Bool :=
  let e := c.sequence
  !within e.amber.toNat 2 5 || !within e.boomDelay.toNat 4 10 || !within e.exitWait.toNat 4 20 ||
  !within e.minimumClosed.toNat 2 30 || !within e.flashPeriod.toNat 10 16 || !within e.laneContact.toNat 200 5000 ||
  !within e.couplingGap.toNat 5 100 || e.arrangement.toNat > 1 || e.compact.toNat > 1 || e.defaultMasks.toNat > 511

/-- The number of the first check a configuration fails, none when it passes all eleven (R186). -/
def failedCheck (c : ConfigImage) : Option Nat :=
  if c.fails1 then some 1
  else if c.fails2 then some 2
  else if c.fails3 then some 3
  else if c.fails4 then some 4
  else if c.fails5 then some 5
  else if c.fails6 then some 6
  else if c.fails7 then some 7
  else if c.fails8 then some 8
  else if c.fails9 then some 9
  else if c.fails10 then some 10
  else if c.fails11 then some 11
  else none

end ConfigImage

/-! ## Octets of entries (R181) -/

namespace Machine

/-- The table a code names (R181). -/
def TableId.ofCode (o : Octet) : Option TableId :=
  match o.toNat with
  | 0 => some .sections | 1 => some .map | 2 => some .profiles | 3 => some .heads | 4 => some .outputs
  | 5 => some .sequence | _ => none

/-- The number of entries of a table (R181, R183). -/
def TableId.entries : TableId → Nat
  | .sections => 10 | .map => 21 | .profiles => 16 | .heads => 12 | .outputs => 8 | .sequence => 1

/-- The size of an entry of a table in octets (R181). -/
def TableId.size : TableId → Nat
  | .sections => 6 | .map => 2 | .profiles => 11 | .heads => 5 | .outputs => 8 | .sequence => 12

end Machine

/-- A SECTIONS entry from its octets (R181). -/
def SectionEntry.ofOctets (l : List Octet) : SectionEntry :=
  ⟨octetAt l 0, octetAt l 1, octetAt l 2, octetAt l 3, octetAt l 4, octetAt l 5⟩

/-- A PROFILES entry from its octets (R181). -/
def ProfileEntry.ofOctets (l : List Octet) : ProfileEntry :=
  ⟨halfAt l 0, octetAt l 2, halfAt l 3, octetAt l 5, halfAt l 6, octetAt l 8, halfAt l 9⟩

/-- The SEQUENCE entry from its octets (R181). -/
def SequenceEntry.ofOctets (l : List Octet) : SequenceEntry :=
  ⟨octetAt l 0, octetAt l 1, octetAt l 2, octetAt l 3, octetAt l 4, halfAt l 5, octetAt l 7, octetAt l 8, octetAt l 9,
    halfAt l 10⟩

namespace ConfigImage
open Machine

/-- The octets of an entry of a table, in the field order of R181. -/
def entryOctets (c : ConfigImage) (t : TableId) (i : Nat) : List Octet :=
  match t with
  | .sections => match c.sections[i]? with
    | some e => [e.used, e.track, e.role, e.side, e.aHead, e.bHead]
    | none => []
  | .map => match c.map[i]? with
    | some e => [e.profile, e.attributes]
    | none => []
  | .profiles => match c.profiles[i]? with
    | some e =>
      half e.length ++ [e.advanceHead] ++ half e.advanceDistance ++ [e.minimumWarning] ++ half e.maximumApproach ++
        [e.raiseMargin] ++ half e.haltGrace
    | none => []
  | .heads => match c.heads[i]? with
    | some e => half e.spacing ++ [e.debounce, e.polarities, e.stuckLimit]
    | none => []
  | .outputs => match c.outputs[i]? with
    | some e => half e.w0 ++ half e.w1 ++ half e.w2 ++ half e.w3
    | none => []
  | .sequence =>
    let e := c.sequence
    [e.amber, e.boomDelay, e.exitWait, e.minimumClosed, e.flashPeriod] ++ half e.laneContact ++
      [e.couplingGap, e.arrangement, e.compact] ++ half e.defaultMasks

/-- Write an entry of a table from its octets (R181, R184). -/
def writeEntry (c : ConfigImage) (t : TableId) (i : Nat) (l : List Octet) : ConfigImage :=
  match t with
  | .sections => { c with sections := c.sections.setIfInBounds i (SectionEntry.ofOctets l) }
  | .map => { c with map := c.map.setIfInBounds i ⟨octetAt l 0, octetAt l 1⟩ }
  | .profiles => { c with profiles := c.profiles.setIfInBounds i (ProfileEntry.ofOctets l) }
  | .heads => { c with heads := c.heads.setIfInBounds i ⟨halfAt l 0, octetAt l 2, octetAt l 3, octetAt l 4⟩ }
  | .outputs => { c with outputs := c.outputs.setIfInBounds i ⟨halfAt l 0, halfAt l 2, halfAt l 4, halfAt l 6⟩ }
  | .sequence => if i = 0 then { c with sequence := SequenceEntry.ofOctets l } else c

/-- Write entries in order from a position, while the position is not above `last` (R184): the configuration, the
position after, and the number written. `entries` is the octets of `n` entries. -/
def writeRun (t : TableId) (last : Nat) : Nat → List Octet → ConfigImage × Nat × Nat → ConfigImage × Nat × Nat
  | 0, _, acc => acc
  | n + 1, l, (c, pos, written) =>
    if pos ≤ last then writeRun t last n (l.drop t.size) (c.writeEntry t pos (l.take t.size), pos + 1, written + 1)
    else (c, pos, written)

end ConfigImage

end Sys2Proof
end

