-- ==== Sys2Proof/Machine/Movements.lean ====
section
/-!
DEFINITION. The movement table: its slots and numbers (R41), spans and section lists (R42, R43), retirement (R51), and the
places of sections and heads along a track that they need (R19).
-/
namespace Sys2Proof.Machine

/-! ## Ends and sides -/

/-- The head at an end of a section (R18). -/
def Place.head (p : Place) : Side → HeadId
  | .a => p.aHead
  | .b => p.bHead

namespace State

/-- The section whose end `x` lies at head `h` (R19). -/
def sectionEnding (s : State) (h : HeadId) (x : Side) : Option SectionId :=
  (List.finRange 10).find? fun k =>
    match s.sections[k].place with
    | some p => p.head x == h
    | none => false

/-- The section on side `x` of head `h`, none where that side is outside (R19): the A-side section ends there with its
B end. -/
def sectionBeside (s : State) (h : HeadId) (x : Side) : Option SectionId := s.sectionEnding h x.other

/-- Whether a head bounds a section (R19). -/
def bounds (s : State) (h : HeadId) : Bool := (s.sectionBeside h .a).isSome || (s.sectionBeside h .b).isSome

/-- The number of sections of the chain that lie before a section toward the A end, looking at most `fuel` back (R19). -/
def positionIn (s : State) : Nat → SectionId → Nat
  | 0, _ => 0
  | fuel + 1, x =>
    match s.sections[x].place with
    | none => 0
    | some p =>
      match s.sectionEnding p.aHead .b with
      | some y => s.positionIn fuel y + 1
      | none => 0

/-- The position of a section along its track, counted from the A end; a track has at most four sections (R19). -/
def position (s : State) (x : SectionId) : Nat := s.positionIn 4 x

/-- A section record. -/
def sect (s : State) (x : SectionId) : Section := s.sections[x]

/-- Write a section record. -/
def setSection (s : State) (x : SectionId) (r : Section) : State := s.onSections fun v => v.set x r

/-- The movement in a slot. -/
def slot (s : State) (k : SlotId) : Option Movement := s.tracker.slots[k]

/-- Write a slot. -/
def setSlot (s : State) (k : SlotId) (m : Option Movement) : State := s.onTracker fun t => { t with slots := t.slots.set k m }

/-- The live movements with their slots, in slot order. -/
def live (s : State) : List (SlotId × Movement) :=
  (List.finRange 16).filterMap fun k => (s.slot k).map fun m => (k, m)

/-- Some live movement satisfies a test. -/
def anyLive (s : State) (p : Movement → Bool) : Bool :=
  (List.finRange 16).any fun k => match s.slot k with
    | some m => p m
    | none => false

/-- The slot of the live movement that holds a number, none for number 0 (R41). -/
def slotOf (s : State) (n : Nat) : Option SlotId :=
  (List.finRange 16).find? fun k => match s.slot k with
    | some m => m.number == n
    | none => false

/-- The lowest-numbered free slot (R41). -/
def freeSlot (s : State) : Option SlotId := (List.finRange 16).find? fun k => (s.slot k).isNone

/-- The number a new movement takes (R41). -/
def nextNumber (s : State) : Nat := nextFree s.tracker.counter fun n => s.anyLive fun m => m.number == n

/-- Put a new movement with its drawn number into a slot and move the number counter on (R41); the CLEARED records of an
earlier movement of that number leave the fault table (R80, log 42). -/
def create (s : State) (k : SlotId) (m : Movement) : State :=
  (s.onFaults fun u => u.giveNumber m.number).onTracker fun t =>
    { t with slots := t.slots.set k (some m), counter := counterAfter m.number }

end State

/-! ## Spans (R42) -/

/-- The sum of the axles of a span (R40). -/
def Movement.totalAxles (m : Movement) : Nat := (m.span.map SpanEntry.axles).sum

/-- The record that R40 gives a movement: the model's own mark of a LONG-APPROACH already raised is no field of it. -/
def Movement.record (m : Movement) : Movement := { m with longRaised := false }

/-- Whether a movement has a span entry for a section. -/
def Movement.holds (m : Movement) (x : SectionId) : Bool := m.span.any fun e => e.sect == x

/-- Whether a movement is DUE or CROSSING, and so demand (R77). -/
def Movement.demanding (m : Movement) : Bool := m.state == .due || m.state == .crossing

/-- A section at position `p` lies ahead of one at `q` in a direction (R42). -/
def ahead (d : Dir) (p q : Nat) : Bool :=
  match d with
  | .ab => q < p
  | .ba => p < q

/-- Put an entry into a span in track order, front first (R42). -/
def insertEntry (pos : SectionId → Nat) (d : Dir) (e : SpanEntry) : List SpanEntry → List SpanEntry
  | [] => [e]
  | x :: xs => if ahead d (pos e.sect) (pos x.sect) then e :: x :: xs else x :: insertEntry pos d e xs

/-- A span with one axle more in a section (R46). -/
def addAxle (pos : SectionId → Nat) (d : Dir) (x : SectionId) (span : List SpanEntry) : List SpanEntry :=
  if span.any (fun e => e.sect == x) then span.map fun e => if e.sect = x then { e with axles := e.axles + 1 } else e
  else insertEntry pos d ⟨x, 1⟩ span

/-- A span with one axle less in a section, an entry that reaches 0 being removed (R45). -/
def removeAxle (x : SectionId) (span : List SpanEntry) : List SpanEntry :=
  (span.map fun e => if e.sect = x then { e with axles := e.axles - 1 } else e).filter fun e => e.axles != 0

/-! ## Lists (R43) -/

/-- Place a movement in a section's list at an end: first for the A end, last for the B end (R43). -/
def placeAtEnd (x : Side) (k : SlotId) (l : List SlotId) : List SlotId :=
  match x with
  | .a => k :: l
  | .b => l ++ [k]

/-- The movement nearest an end of a list (R43). -/
def nearestEnd (x : Side) (l : List SlotId) : Option SlotId :=
  match x with
  | .a => l.head?
  | .b => l.getLast?

/-- The number of movements a section's list holds at most (R43). -/
def listCapacity : Nat := 4

namespace State

/-! ## Retirement (R51, R80) -/

/-- Clear the approach timer's faults of a movement (R80), in the order of log 7. -/
def clearMovementFaults (s : State) (number : Nat) : State :=
  (s.clear .shortWarning (.movement number)).clear .longApproach (.movement number)

/-- Retire the movement of a slot (R51): its faults are cleared, MOVEMENT-PASSED is queued where R50 calls for it, and
the slot becomes free. -/
def retire (s : State) (k : SlotId) (passed : Bool) : State :=
  match s.slot k with
  | none => s
  | some m =>
    let s := s.clearMovementFaults m.number
    let s :=
      if passed then s.notice (.movementPassed m.number m.track m.dir m.crossingAxles m.entrySpeed s.seconds) else s
    s.setSlot k none

/-- Discard every live movement without notices (R60), their faults being cleared (R80). -/
def discardMovements (s : State) : State :=
  (List.finRange 16).foldl (fun s k => s.retire k false) s

/-! ## Warned-at at a red start (R70) -/

/-- Every DUE or CROSSING movement without warned-at takes a new red start (R70). -/
def warnFrom (s : State) (red : Time) : State :=
  s.onTracker fun t =>
    { t with slots := Vector.ofFn fun k : SlotId => t.slots[k].map fun m =>
        if m.demanding && m.warnedAt.isNone then { m with warnedAt := some red } else m }

end State

end Sys2Proof.Machine
end

