-- ==== Sys2Proof/Machine/Outputs.lean ====
section
/-!
DEFINITION. The output supervisor (R125 to R148): the booms and their contacts, the lamp channels and their proving, the
audible warning, and the moment the outputs take effect. Orders and programmes of the sequencer's states are R104.
-/
namespace Sys2Proof

/-- The four booms, in boom order (R181). -/
def BoomId.all : List BoomId := [.entry1, .exit1, .entry2, .exit2]

/-- The six channels, in the order of R136. -/
def Channel.all : List Channel := [.amber1, .redLeft1, .redRight1, .amber2, .redLeft2, .redRight2]

/-- The boom is an entry boom. -/
def BoomId.isEntry : BoomId → Bool
  | .entry1 | .entry2 => true
  | .exit1 | .exit2 => false

/-- The channel is a red one. -/
def Channel.isRed : Channel → Bool
  | .amber1 | .amber2 => false
  | .redLeft1 | .redRight1 | .redLeft2 | .redRight2 => true

/-- The red on the other hand of the same road side (R139); an amber channel has none. -/
def Channel.otherRed : Channel → Option Channel
  | .redLeft1 => some .redRight1
  | .redRight1 => some .redLeft1
  | .redLeft2 => some .redRight2
  | .redRight2 => some .redLeft2
  | .amber1 | .amber2 => none

/-- The current of a channel. -/
def Currents.of (i : Currents) : Channel → Nat
  | .amber1 => i.amber1
  | .redLeft1 => i.redLeft1
  | .redRight1 => i.redRight1
  | .amber2 => i.amber2
  | .redLeft2 => i.redLeft2
  | .redRight2 => i.redRight2

/-- The current of a red channel in a proving pulse; an amber channel is not driven. -/
def RedCurrents.of (i : RedCurrents) : Channel → Nat
  | .redLeft1 => i.redLeft1
  | .redRight1 => i.redRight1
  | .redLeft2 => i.redLeft2
  | .redRight2 => i.redRight2
  | .amber1 | .amber2 => 0

namespace Machine

/-! ## Fixed intervals in ms (R125) -/

/-- The contact debounce (R127), in hundredths of a ms. -/
def contactDebounce : Nat := 2000
/-- The settle (R129) and the life of a rest mark (R131). -/
def settleMs : Nat := 1000
/-- The contact conflict time (R132). -/
def conflictMs : Nat := 200
/-- The recovery time of a boom (R135). -/
def boomRecoveryMs : Nat := 2000
/-- The stray-current level in mA (R140). -/
def strayLevel : Nat := 30
/-- The time between proving pulses (R141). -/
def pulseTimerMs : Nat := 60000
/-- The proving pulse (R141). -/
def pulseMs : Nat := 100
/-- The lamp test (R147). -/
def lampTestMs : Nat := 5000

/-! ## Access by name -/

/-- The record of a boom. -/
def Booms.get (v : Booms) : BoomId → Boom
  | .entry1 => v.entry1
  | .exit1 => v.exit1
  | .entry2 => v.entry2
  | .exit2 => v.exit2

/-- Write the record of a boom. -/
def Booms.set (v : Booms) (i : BoomId) (b : Boom) : Booms :=
  match i with
  | .entry1 => { v with entry1 := b }
  | .exit1 => { v with exit1 := b }
  | .entry2 => { v with entry2 := b }
  | .exit2 => { v with exit2 := b }

/-- The four records, each from its boom. -/
def Booms.build (f : BoomId → Boom) : Booms := ⟨f .entry1, f .exit1, f .entry2, f .exit2⟩

/-- Every boom satisfies a test. -/
def Booms.all (v : Booms) (p : Boom → Bool) : Bool := p v.entry1 && p v.exit1 && p v.entry2 && p v.exit2

/-- The record of a channel. -/
def Lamps.get (v : Lamps) : Channel → Lamp
  | .amber1 => v.amber1
  | .redLeft1 => v.redLeft1
  | .redRight1 => v.redRight1
  | .amber2 => v.amber2
  | .redLeft2 => v.redLeft2
  | .redRight2 => v.redRight2

/-- Write the record of a channel. -/
def Lamps.set (v : Lamps) (c : Channel) (l : Lamp) : Lamps :=
  match c with
  | .amber1 => { v with amber1 := l }
  | .redLeft1 => { v with redLeft1 := l }
  | .redRight1 => { v with redRight1 := l }
  | .amber2 => { v with amber2 := l }
  | .redLeft2 => { v with redLeft2 := l }
  | .redRight2 => { v with redRight2 := l }

/-- The six records, each from its channel. -/
def Lamps.build (f : Channel → Lamp) : Lamps :=
  ⟨f .amber1, f .redLeft1, f .redRight1, f .amber2, f .redLeft2, f .redRight2⟩

/-! ## Orders and programmes of the sequencer's states (R104) -/

/-- The order a sequencer state gives a boom (R104). -/
def SeqState.order (st : SeqState) (i : BoomId) : Order :=
  match st with
  | .open | .amber | .redWarning | .raising => .raise
  | .entryLowering | .exitWait => if i.isEntry then .lower else .raise
  | .exitLowering | .closed | .reclosing | .failedClosed => .lower

/-- The lamp programme of a state is RED-FLASH (R104). -/
def SeqState.redFlash (st : SeqState) : Bool := st != .open && st != .amber

/-- The states in which a running second-train timer sounds SECOND-TRAIN (R104, R120). -/
def SeqState.hearsSecondTrain (st : SeqState) : Bool :=
  st == .exitWait || st == .exitLowering || st == .closed || st == .failedClosed

namespace Booms

/-- Both entry booms are DOWN. -/
def entriesDown (v : Booms) : Bool := v.entry1.state == .down && v.entry2.state == .down

/-- All four booms are DOWN. -/
def allDown (v : Booms) : Bool := v.all fun b => b.state == .down

/-- All four booms are UP. -/
def allUp (v : Booms) : Bool := v.all fun b => b.state == .up

/-- Some boom is STOPPED, and so faulted (R126). -/
def anyStopped (v : Booms) : Bool := !v.all fun b => b.state != .stopped

end Booms

/-- The audible programme of a sequencer record over the booms (R104, R120). -/
def Sequencer.programme (q : Sequencer) (v : Booms) : Programme :=
  if q.state.hearsSecondTrain && q.secondTrain.isSome then .secondTrain
  else
    match q.state with
    | .redWarning | .entryLowering => .warning
    | .reclosing | .failedClosed => if v.entriesDown then .silent else .warning
    | .open | .amber | .exitWait | .exitLowering | .closed | .raising => .silent

/-! ## Booms -/

namespace Boom

/-- The DOWN contact is MADE alone (R127). -/
def downAlone (b : Boom) : Bool := b.downContact.made && !b.upContact.made

/-- The UP contact is MADE alone (R127). -/
def upAlone (b : Boom) : Bool := b.upContact.made && !b.downContact.made

/-- The target contact of a direction is MADE alone (R129, R130). -/
def targetAlone (b : Boom) : Order → Bool
  | .raise => b.upAlone
  | .lower => b.downAlone

/-- Recovery since (R135): from `t` while the boom is STOPPED with the DOWN contact MADE alone under LOWER; a time it holds
already stands (log 22). -/
def watchRecovery (b : Boom) (t : Time) : Boom :=
  { b with recoverySince :=
      if b.state = .stopped ∧ b.downAlone = true ∧ b.order = .lower then some (b.recoverySince.getD t) else none }

/-- Begin a motion in a direction at `t` with a travel limit (R129, R130). -/
def move (b : Boom) (o : Order) (t : Time) (travelMs : Nat) : Boom :=
  { b with
    state := (match o with | .raise => .raising | .lower => .lowering)
    pending := none
    settleExpiry := none
    travelExpiry := some (after t travelMs) }

/-- Brake before a motion in a direction (R129). -/
def settle (b : Boom) (o : Order) (expiry : Time) : Boom :=
  { b with state := .settling, pending := some o, settleExpiry := some expiry, travelExpiry := none }

/-- Leave a position of rest (R129): by a settle to the end of the rest mark's second, or at once. -/
def depart (b : Boom) (o : Order) (now : Time) (travelMs : Nat) : Boom :=
  match b.restMark with
  | some mark => b.settle o (after mark settleMs)
  | none => b.move o now travelMs

/-- Take an order at an uptime (R128, R129). An order equal to the present one changes nothing. -/
def takeOrder (b : Boom) (o : Order) (uptime : Nat) (travelMs : Nat) : Boom :=
  if b.order = o then b
  else
    let now := clockAt uptime
    let b := { b with order := o, orderSince := uptime }
    match b.state, o with
    | .up, .lower | .down, .raise => b.depart o now travelMs
    | .lowering, .raise | .raising, .lower => b.settle o (after now settleMs)
    | .settling, _ => { b with pending := some o }
    | .stopped, _ => b.watchRecovery now
    | .up, .raise | .down, .lower | .lowering, .lower | .raising, .raise => b

/-- Enter UP or DOWN (R130, R131). -/
def rest (b : Boom) (o : Order) (mark : Option Time) : Boom :=
  { b with
    state := (match o with | .raise => .up | .lower => .down)
    pending := none
    settleExpiry := none
    travelExpiry := none
    restMark := mark }

/-- Act on the pending direction at the settle expiry `t` (R130). -/
def actOnPending (b : Boom) (o : Order) (t : Time) (travelMs : Nat) : Boom :=
  if b.targetAlone o then b.rest o none else { b.move o t travelMs with restMark := none }

/-- Take a conditioned contact change whose run began at the uptime `run` (R127, R132). Recovery since is the later of the
run's start and the last change of order (R135). -/
def contact (b : Boom) (c : ContactId) (made : Bool) (run : Nat) : Boom :=
  let t := clockAt run
  let b := match c with
    | .up => { b with upContact := ⟨made, t⟩ }
    | .down => { b with downContact := ⟨made, t⟩ }
  let b := { b with conflictSince :=
      if b.upContact.made && b.downContact.made then some (b.conflictSince.getD t) else none }
  b.watchRecovery (clockAt (max run b.orderSince))

/-- The boom is moving and its target contact stands MADE alone (R131). -/
def arriving (b : Boom) : Bool :=
  (b.state == .lowering && b.downAlone) || (b.state == .raising && b.upAlone)

/-- The boom rests in the direction of its order and the contact of its position is OPEN (R133). -/
def displaced (b : Boom) : Bool :=
  (b.state == .down && b.order == .lower && !b.downContact.made) ||
  (b.state == .up && b.order == .raise && !b.upContact.made)

end Boom

/-- The set holding one kind of boom failure; the other kinds of fault are no boom failures (R126). -/
def BoomFailures.only : FaultKind → BoomFailures
  | .boomTravelTimeout => ⟨true, false, false⟩
  | .boomContactConflict => ⟨false, true, false⟩
  | .boomDisplaced => ⟨false, false, true⟩
  | _ => BoomFailures.none

namespace State

/-- The record of a boom. -/
def boom (s : State) (i : BoomId) : Boom := s.out.booms.get i

/-- Write the record of a boom. -/
def setBoom (s : State) (i : BoomId) (b : Boom) : State := s.onOut fun o => { o with booms := o.booms.set i b }

/-- The lower drive of a boom is on: in LOWERING, while outputs are driven (R126, R148). -/
def lowerDrive (s : State) (i : BoomId) : Bool := s.out.driven && (s.boom i).state == .lowering

/-- The raise drive of a boom is on: in RAISING, while outputs are driven (R126, R148). -/
def raiseDrive (s : State) (i : BoomId) : Bool := s.out.driven && (s.boom i).state == .raising

/-- The hold of a boom is applied: in UP, RAISING and SETTLING, while outputs are driven (R126, R148). -/
def holdApplied (s : State) (i : BoomId) : Bool :=
  s.out.driven && ((s.boom i).state == .up || (s.boom i).state == .raising || (s.boom i).state == .settling)

/-- End a test on a boom: it takes at once the order the sequencer gives it (R128, R146). -/
def endBoomTest (s : State) (i : BoomId) : State :=
  let b := s.boom i
  if b.source = .test then
    s.setBoom i (({ b with source := .sequencer } : Boom).takeOrder (s.seq.state.order i) s.uptime s.cfg.travelMs)
  else s

/-- End any boom test (R146). -/
def endBoomTests (s : State) : State := BoomId.all.foldl endBoomTest s

/-- Hand every boom that is not under test its order of the sequencer's state (R104, R128). -/
def handOrders (s : State) : State :=
  s.onOut fun o => { o with booms := Booms.build fun i =>
    let b := o.booms.get i
    if b.source = .test then b else b.takeOrder (s.seq.state.order i) s.uptime s.cfg.travelMs }

/-- A boom enters STOPPED (R134). -/
def stopBoom (s : State) (i : BoomId) (k : FaultKind) : State :=
  let b := { s.boom i with
    state := .stopped
    failures := BoomFailures.only k
    travelExpiry := none
    pending := none
    settleExpiry := none
    restMark := none }
  let s := ((s.setBoom i (b.watchRecovery s.now)).endBoomTest i)
  s.raise k (.boom i)

/-- A moving boom arrives (R131); a test order of LOWER ends there (R146). -/
def arriveBoom (s : State) (i : BoomId) (o : Order) : State :=
  let s := s.setBoom i ((s.boom i).rest o (some s.now))
  if (s.boom i).source = .test ∧ (s.boom i).order = .lower ∧ o = .lower then s.endBoomTest i else s

/-- What a boom does after a contact change, while the outputs are driven (R131, R133). -/
def followContact (s : State) (i : BoomId) : State :=
  let b := s.boom i
  if !s.out.driven then s
  else if b.arriving then s.arriveBoom i (if b.state = .raising then .raise else .lower)
  else if b.displaced then s.stopBoom i .boomDisplaced
  else s

end State

/-! ## Lamp channels -/

/-- A channel's condition is FAILED. -/
def Lamp.failed (l : Lamp) : Bool :=
  match l.condition with
  | .failed _ => true
  | .proven _ => false

/-- The major lamp condition (R142). -/
def Lamps.major (v : Lamps) : Bool :=
  (v.redLeft1.failed && v.redRight1.failed) || (v.redLeft2.failed && v.redRight2.failed) ||
  Channel.all.any fun c => (v.get c).stray

/-- The drive of a channel (R137, R147): `st` the sequencer's state, `flashing` whether the reds flash. -/
def litIn (st : SeqState) (flashing : Bool) (p : Phase) (test : Bool) (c : Channel) : Bool :=
  test ||
  match c with
  | .amber1 | .amber2 => st == .amber
  | .redLeft1 | .redLeft2 => flashing && p == .one
  | .redRight1 | .redRight2 => flashing && p == .two

/-- The channel with a drive: a drive that changes leaves the phase not whole (R138). -/
def Lamp.drive (l : Lamp) (lit : Bool) : Lamp := if l.lit = lit then l else { l with lit := lit, whole := false }

/-- The channel at the start of a phase (R136, R138); a phase that a proving pulse falls in is not whole (R141). -/
def Lamp.begin (l : Lamp) (lit : Bool) (pulsed : Bool) : Lamp := { l with lit := lit, whole := !pulsed }

namespace State

/-- The record of a channel. -/
def lamp (s : State) (c : Channel) : Lamp := s.out.lamps.get c

/-- Write the record of a channel. -/
def setLamp (s : State) (c : Channel) (l : Lamp) : State := s.onOut fun o => { o with lamps := o.lamps.set c l }

/-- The kind of fault of a failed channel (R139). -/
def lampOut (c : Channel) : FaultKind := if c.isRed then .redLampOut else .amberLampOut

/-- The other red of the channel's side is FAILED (R139). -/
def otherRedFailed (s : State) (c : Channel) : Bool :=
  match c.otherRed with
  | some d => (s.lamp d).failed
  | none => false

/-- Re-grade the other red of the side while it is FAILED (R139). -/
def regradeOther (s : State) (c : Channel) (sev : Severity) : State :=
  match c.otherRed with
  | some d => if (s.lamp d).failed then s.regrade .redLampOut (.lamp d) sev else s
  | none => s

/-- A channel fails (R139): its own fault, then the re-grading of the other red (log 7). -/
def failLamp (s : State) (c : Channel) : State :=
  let s := s.setLamp c { s.lamp c with condition := .failed 0 }
  let sev : Severity := if s.otherRedFailed c then .major else .minor
  (s.raiseAt (lampOut c) (.lamp c) sev).regradeOther c .major

/-- A channel recovers (R139): its own fault, then the re-grading of the other red (log 7). -/
def recoverLamp (s : State) (c : Channel) : State :=
  let s := s.setLamp c { s.lamp c with condition := .proven 0 }
  (s.clear (lampOut c) (.lamp c)).regradeOther c .minor

/-- Judge a lit phase or a proving pulse of a channel (R138, R139, R141). -/
def judgeLit (s : State) (c : Channel) (inWindow : Bool) : State :=
  match (s.lamp c).condition, inWindow with
  | .proven _, true => s.setLamp c { s.lamp c with condition := .proven 0 }
  | .proven n, false =>
    if n + 1 ≥ 3 then s.failLamp c else s.setLamp c { s.lamp c with condition := .proven (n + 1) }
  | .failed _, false => s.setLamp c { s.lamp c with condition := .failed 0 }
  | .failed n, true =>
    if n + 1 ≥ 3 then s.recoverLamp c else s.setLamp c { s.lamp c with condition := .failed (n + 1) }

/-- Judge a dark phase of a channel (R140). -/
def judgeDark (s : State) (c : Channel) (mA : Nat) : State :=
  let l := s.lamp c
  let above : Bool := mA > strayLevel
  if above = l.stray then s.setLamp c { l with dark := 0 }
  else if l.dark + 1 < 3 then s.setLamp c { l with dark := l.dark + 1 }
  else
    let s := s.setLamp c { l with dark := 0, stray := !l.stray }
    if l.stray then s.clear .lampStrayCurrent (.lamp c) else s.raise .lampStrayCurrent (.lamp c)

/-- Judge a channel at the end of a phase, when it was driven the same way throughout (R138). -/
def judgePhase (s : State) (c : Channel) (mA : Nat) : State :=
  let l := s.lamp c
  if !l.whole then s
  else if l.lit then s.judgeLit c (s.cfg.inWindow c mA)
  else s.judgeDark c mA

end State

/-- The other phase. -/
def Phase.next : Phase → Phase
  | .one => .two
  | .two => .one

/-- Whether the reds flash (R137). -/
def redsFlash (st : SeqState) (v : Booms) : Bool := st.redFlash || !v.allUp

/-- Begin a phase for every channel (R136, R137, R141). -/
def Outputs.beginPhase (o : Outputs) (st : SeqState) (flashing : Bool) (p : Phase) (ends : Time) : Outputs :=
  { o with
    flash := ⟨p, ends, flashing⟩
    lamps := Lamps.build fun c =>
      (o.lamps.get c).begin (litIn st flashing p (o.lamps.get c).underTest c) (o.pulse.isSome && c.isRed) }

/-- Set the drive of every channel at an event within a phase; the flash clock restarts when the reds begin to flash
(R136, R137). -/
def Outputs.driveLamps (o : Outputs) (st : SeqState) (now : Time) (phaseMs : Nat) : Outputs :=
  let flashing := redsFlash st o.booms
  if flashing && !o.flash.flashing then o.beginPhase st true .one (after now phaseMs)
  else
    { o with
      flash := { o.flash with flashing := flashing }
      lamps := Lamps.build fun c =>
        (o.lamps.get c).drive (litIn st flashing o.flash.phase (o.lamps.get c).underTest c) }

/-! ## The audible warning -/

/-- The duration of a tone of a programme in ms (R143). -/
def toneMs (c : ConfigImage) (p : Programme) (second : Bool) : Nat :=
  match p with
  | .secondTrain => c.secondTrainMs second
  | .warning | .silent => c.warningMs second

/-- A tone of a programme begun at `t`: none in SILENT (R143). -/
def toneFrom (c : ConfigImage) (p : Programme) (second : Bool) (t : Time) : Option Tone :=
  match p with
  | .silent => none
  | .warning | .secondTrain => some ⟨second, c.toneHertz second, after t (toneMs c p second)⟩

/-- Take a programme from the sequencer (R143): a changed one begins its tone 1, or stops the tone. -/
def Audible.hand (a : Audible) (c : ConfigImage) (p : Programme) (now : Time) : Audible :=
  if a.programme = p then a else { a with programme := p, tone := toneFrom c p false now }

namespace State

/-- Judge a tone that sounded for its whole duration (R144). -/
def judgeTone (s : State) (mA : Nat) : State :=
  let a := s.out.audible
  let below : Bool := mA < s.cfg.audibleThreshold
  let put (count : Nat) (cut : Bool) : State :=
    s.onOut fun o => { o with audible := { o.audible with coilCount := count, openCircuit := cut } }
  if below = a.openCircuit then put 0 a.openCircuit
  else if a.coilCount + 1 < 2 then put (a.coilCount + 1) a.openCircuit
  else if a.openCircuit then (put 0 false).clear .audibleOpenCircuit .audible
  else (put 0 true).raise .audibleOpenCircuit .audible

end State

/-! ## The outputs across a reset (R148) -/

/-- A boom as the outputs take effect (R148). -/
def Boom.takeEffect (b : Boom) (uptime : Nat) (travelMs : Nat) : Boom :=
  { b with
    state := if b.downAlone then .down else .lowering
    travelExpiry := if b.downAlone then none else some (after (clockAt uptime) travelMs)
    order := .lower
    orderSince := uptime
    source := .sequencer
    restMark := none
    pending := none
    settleExpiry := none
    recoverySince := none
    failures := BoomFailures.none }

/-- The outputs as they take effect under the sequencer's record (R148). -/
def Outputs.takeEffect (o : Outputs) (c : ConfigImage) (q : Sequencer) (uptime : Nat) : Outputs :=
  let now := clockAt uptime
  let booms := Booms.build fun i => (o.booms.get i).takeEffect uptime c.travelMs
  let base : Outputs :=
    { o with
      driven := true
      booms := booms
      lamps := Lamps.initial
      pulseTimer := none
      pulse := none
      lampTest := none
      major := false
      audible := Audible.hand ⟨.silent, none, false, 0⟩ c (q.programme booms) now }
  base.beginPhase q.state true .one (after now c.phaseMs)

end Machine

end Sys2Proof
end

