-- ==== Sys2Proof/Machine/Stances.lean ====
section
/-!
DEFINITION. The stance combiner (R84 to R100): lane contact and its loss, holds and the combined hold, consents and their
completeness, reset agreements, and the disagreement supervision.
-/
namespace Sys2Proof

/-- The other lane. -/
def Lane.other : Lane → Lane
  | .a => .b
  | .b => .a

/-- The lane whose port this is (R84). -/
def Port.lane : Port → Option Lane
  | .laneA => some .a
  | .laneB => some .b
  | .signaller | .service => none

/-- A lane's stance takes part in the lane arrangement (R99). -/
def ConfigImage.takesPart (c : ConfigImage) : Lane → Bool
  | .a => true
  | .b => c.dual

namespace Machine

/-! ## Fixed intervals in ms -/

/-- The limit for a lane not yet heard (R86). -/
def notHeardMs : Nat := 10000
/-- The life of a consent (R91, R92). -/
def consentMs : Nat := 10000
/-- The disagreement time (R94). -/
def disagreeMs : Nat := 5000
/-- The life of a reset agreement (R96). -/
def agreementMs : Nat := 30000

namespace Stances

/-- The stance of a lane. -/
def lane (v : Stances) : Lane → LaneStance
  | .a => v.laneA
  | .b => v.laneB

/-- Write the stance of a lane. -/
def setLane (v : Stances) (l : Lane) (x : LaneStance) : Stances :=
  match l with
  | .a => { v with laneA := x }
  | .b => { v with laneB := x }

/-- The hold of the stance of a port (R88). -/
def holdOf (v : Stances) : Port → Bool
  | .laneA => v.laneA.hold
  | .laneB => v.laneB.hold
  | .signaller => v.signallerHold
  | .service => v.serviceHold

/-- Write the hold of the stance of a port (R88). -/
def setHold (v : Stances) (p : Port) (held : Bool) : Stances :=
  match p with
  | .laneA => { v with laneA := { v.laneA with hold := held } }
  | .laneB => { v with laneB := { v.laneB with hold := held } }
  | .signaller => { v with signallerHold := held }
  | .service => { v with serviceHold := held }

/-- The combined hold (R89). -/
def combinedHold (v : Stances) : Bool :=
  v.laneA.hold || v.laneB.hold || v.signallerHold || v.serviceHold || v.maintenance

/-- Drop the consent of a lane (R92). -/
def dropConsent (v : Stances) (l : Lane) : Stances := v.setLane l { v.lane l with consent := none }

/-- Drop both lanes' consents (R92). -/
def dropConsents (v : Stances) : Stances := (v.dropConsent .a).dropConsent .b

/-- Drop both lanes' reset agreements (R96). -/
def dropAgreements (v : Stances) : Stances :=
  { v with laneA := { v.laneA with agreement := none }, laneB := { v.laneB with agreement := none } }

/-- Drop every agreement that names a section which has left DISTURBED (R96). -/
def sectionLeft (v : Stances) (x : SectionId) : Stances :=
  let keep (a : Option Agreement) : Option Agreement := a.filter fun g => g.sect != x
  { v with
    laneA := { v.laneA with agreement := keep v.laneA.agreement }
    laneB := { v.laneB with agreement := keep v.laneB.agreement } }

end Stances

/-- A lane stance agrees to a section within the last 30 s (R35, R96). -/
def LaneStance.agrees (x : LaneStance) (k : SectionId) (now : Time) : Bool :=
  match x.agreement with
  | some g => g.sect == k && since now g.given ≤ agreementMs
  | none => false

/-- A lane stance is PRESENT and consents to a closure within the last 10 s (R91). -/
def LaneStance.consents (x : LaneStance) (closure : Half) (now : Time) : Bool :=
  x.contact == .present &&
  match x.consent with
  | some g => g.closure == closure && since now g.given ≤ consentMs
  | none => false

namespace State

/-- The stance of a lane. -/
def lane (s : State) (l : Lane) : LaneStance := s.stances.lane l

/-- Write the stance of a lane. -/
def setLane (s : State) (l : Lane) (x : LaneStance) : State := s.onStances fun v => v.setLane l x

/-- Every lane that takes part satisfies a test (R91, R99). -/
def everyLane (s : State) (p : Lane → Bool) : Bool := p .a && (!s.cfg.dual || p .b)

/-- Consent is complete (R91). -/
def consentComplete (s : State) : Bool := s.everyLane fun l => (s.lane l).consents s.seq.closure s.now

/-- The reset agreements reported for a DIRECT reset of a section are given (R35, R96, R99). -/
def agreed (s : State) (x : SectionId) : Bool := s.everyLane fun l => (s.lane l).agrees x s.now

/-- Contact from a lane (R85). -/
def takeContact (s : State) (l : Lane) : State :=
  let x := s.lane l
  let s := s.setLane l { x with contact := .present, lastContact := some s.now }
  if x.contact = .lost then s.clear .laneLost (.lane l) else s

/-- A lane becomes LOST (R86, R87). -/
def loseLane (s : State) (l : Lane) : State :=
  (s.setLane l { s.lane l with contact := .lost, consent := none, agreement := none }).raise .laneLost (.lane l)

/-- Clear the LANE-DISAGREE faults of both lanes (R94), Lane A first (log 7). -/
def clearDisagree (s : State) : State := (s.clear .laneDisagree (.lane .a)).clear .laneDisagree (.lane .b)

/-- A section has left DISTURBED (R96). -/
def sectionLeft (s : State) (x : SectionId) : State := s.onStances fun v => v.sectionLeft x

end State

end Machine

end Sys2Proof
end

