-- ==== Sys2Proof/Machine/Sequence.lean ====
section
/-!
DEFINITION. The crossing sequencer (R102 to R120): what an entry into each state does, raise permission, the cause set, the
proven flag, and the one transition the sequencer makes on the inputs of an event, after that of the event itself (log 26).
-/
namespace Sys2Proof.Machine

/-- The life of the second-train timer in ms (R120). -/
def secondTrainTimerMs : Nat := 10000

/-- An entry from one state into another begins a new closure number (R105). -/
def newClosure (old st : SeqState) : Bool :=
  match st with
  | .amber | .reclosing => true
  | .failedClosed => old == .open || old == .raising
  | _ => false

/-- An entry from one state into another sets the red start to its time (R69). -/
def setsRedStart (old st : SeqState) : Bool :=
  match st with
  | .redWarning => true
  | .failedClosed => old == .open || old == .amber
  | _ => false

/-- The expiry of the step timer started on an entry (R103). -/
def stepExpiry (c : ConfigImage) (st : SeqState) (now : Time) : Option Time :=
  match st with
  | .amber => some (after now c.amberMs)
  | .redWarning => some (after now c.boomDelayMs)
  | .exitWait => some (after now c.exitWaitMs)
  | _ => none

/-- The sequencer record after an entry into a state (R103, R105, R69, R109, R117, R120). -/
def Sequencer.enter (q : Sequencer) (c : ConfigImage) (st : SeqState) (now : Time) : Sequencer :=
  { q with
    state := st
    closure := if newClosure q.state st then q.closure + 1 else q.closure
    redStart := if st = .open then none else if setsRedStart q.state st then some now else q.redStart
    stepTimer := stepExpiry c st now
    minClosed := if st = .closed then some (.running (after now c.minimumClosedMs)) else none
    secondTrain := if q.state.hearsSecondTrain && st.hearsSecondTrain then q.secondTrain else none }

/-- The pulse timer on an entry: it starts on OPEN and ends on leaving it, with a pulse in progress (R141, log 25). -/
def Outputs.pulseOn (o : Outputs) (st : SeqState) (now : Time) : Outputs :=
  if st = .open then { o with pulseTimer := some (after now pulseTimerMs), pulse := none }
  else { o with pulseTimer := none, pulse := none }

namespace State

/-- The sequencer enters a state (R104 to R118): the record, the orders to the booms, the pulse timer, the consents dropped
(R92), the LANE-DISAGREE faults cleared (R94), and warned-at at a new red start (R70). -/
def enterState (s : State) (st : SeqState) : State :=
  let old := s.seq
  let s := s.onSeq fun q => q.enter s.cfg st s.now
  let s := if newClosure old.state st || old.state == .closed then s.onStances Stances.dropConsents else s
  let s := if newClosure old.state st || st == .raising then s.clearDisagree else s
  let s := (s.onOut fun o => o.pulseOn st s.now).handOrders
  if setsRedStart old.state st then s.warnFrom s.now else s

/-- Some boom is faulted (R126). -/
def boomFaulted (s : State) : Bool := s.out.booms.anyStopped

/-- Raise is otherwise permitted: every condition of R111 but complete consent. -/
def raiseOtherwise (s : State) : Bool :=
  s.seq.state == .closed && s.seq.minClosed == some .elapsed && !s.approach.demand && !s.approach.blocker &&
  !s.boomFaulted && !s.out.major && s.mon.supply != .low && s.mon.mode == .normal

/-- Raise is permitted (R111). -/
def raisePermitted (s : State) : Bool := s.raiseOtherwise && s.consentComplete

/-- The proven flag's value (R119). -/
def provenNow (s : State) : Bool :=
  s.seq.state == .closed && s.out.booms.allDown && !s.boomFaulted && !s.out.major

/-- The cause set is empty (R115). -/
def noCause (s : State) : Bool :=
  !s.seq.causes.boom && !s.seq.causes.lamp && !s.seq.causes.start && !s.seq.causes.config

/-- The cause set as the conditions now stand (R115, R116): `appeared` says that the major lamp condition appeared in this
event. CONFIG enters by the commit and the end of start-up alone. -/
def gatherCauses (s : State) (appeared : Bool) : State :=
  s.onSeq fun q =>
    { q with causes :=
      { boom := s.boomFaulted
        lamp := s.out.major && (q.causes.lamp || (appeared && q.state != .open))
        start := q.causes.start && s.mon.mode != .normal
        config := q.causes.config && (s.mon.mode == .unconfigured || q.configMark) } }

/-- The end of a closing sequence: CLOSED, or FAILED-CLOSED with LAMP (R109, R116). -/
def endClosing (s : State) : State :=
  if s.out.major then
    (s.onSeq fun q => { q with causes := { q.causes with lamp := true } }).enterState .failedClosed
  else s.enterState .closed

/-- The one transition the sequencer makes on its inputs at the end of an event (R106 to R118), after the transition that a
timer of it or a commit may have made as the event's own effect (log 26); `demandAppeared` is the appearance of demand in it. -/
def react (s : State) (demandAppeared : Bool) : State :=
  if s.seq.state != .failedClosed && !s.noCause then s.enterState .failedClosed
  else
    match s.seq.state with
    | .open => if demandAppeared then s.enterState .amber else s
    | .amber | .redWarning | .exitWait => s
    | .entryLowering => if s.out.booms.entriesDown then s.enterState .exitWait else s
    | .exitLowering | .reclosing => if s.out.booms.allDown then s.endClosing else s
    | .closed => if s.raisePermitted then s.enterState .raising else s
    | .raising =>
      if demandAppeared then s.enterState .reclosing
      else if s.out.booms.allUp then s.enterState .open
      else s
    | .failedClosed => if s.noCause && s.out.booms.allDown then s.enterState .closed else s

end State

end Sys2Proof.Machine
end

