-- ==== Sys2Proof/Machine/Approach.lean ====
section
/-!
DEFINITION. The approach timer (R62 to R82): the governing entry of a movement, its situation and state, its timing fields,
the due time and its re-timing, the short-warning and long-approach tests, demand and the raise blocker.
-/
namespace Sys2Proof.Machine

namespace State

/-- The role of a section, none in an unused one (R18). -/
def role (s : State) (x : SectionId) : Option Role := (s.sect x).place.map Place.role

/-- Whether a section is an island (R18). -/
def isIsland (s : State) (x : SectionId) : Bool := s.role x == some .island

/-- The direction toward the island from a section of role APPROACH (R62). -/
def toward (s : State) (x : SectionId) : Option Dir :=
  match s.role x with
  | some (.approach side) => some side.toward
  | _ => none

/-- The toward entry of a section (R62); of a section that has none, the entry for a direction given. -/
def towardEntry (s : State) (x : SectionId) (d : Dir) : Fin 21 := ConfigImage.mapIndex x ((s.toward x).getD d)

/-- A section is an approach whose side matches a direction (R63). -/
def matching (s : State) (d : Dir) (x : SectionId) : Bool := s.toward x == some d

/-- The section whose toward entry governs a movement (R63): the foremost approach of its span that matches its direction,
else the section at its front. -/
def governingSection (s : State) (m : Movement) : Option SectionId :=
  match (m.span.map SpanEntry.sect).find? (s.matching m.dir) with
  | some x => some x
  | none => (m.span.head?).map SpanEntry.sect

/-- The governing entry of a movement (R63). -/
def governingEntry (s : State) (m : Movement) : Fin 21 :=
  match s.governingSection m with
  | some x => s.towardEntry x m.dir
  | none => 20

/-- The governing profile of a movement (R63). -/
def governingProfile (s : State) (m : Movement) : ProfileEntry := s.cfg.profileAt (s.governingEntry m)

end State

/-- The situation of a movement (R64). -/
inductive Situation where
  | island | toward | away
deriving DecidableEq, Repr

/-- A change handed by the tracker or by a request (R57): a new record, a span entry stripped, a passage attributed, and
the time of the event (R65). -/
structure Change where
  fresh : Bool
  stripped : Bool
  passage : Bool
  time : Time
deriving DecidableEq, Repr

/-- Some section satisfies a test. -/
def anySection (p : SectionId → Bool) : Bool := (List.finRange 10).any p

/-- Travel over `metres` at `v` km/h in ms, `v` taken as 5 when below 5 (R66, R68, R73). -/
def travelTime (metres v : Nat) : Nat := metres * 3600 / max v 5

namespace State

/-- The situation of a movement (R64). -/
def situation (s : State) (m : Movement) : Situation :=
  if m.span.any fun e => s.isIsland e.sect then .island
  else if m.span.any (fun e => s.matching m.dir e.sect) && s.cfg.auto (s.governingEntry m) then .toward
  else .away

/-- The lead of a profile in ms (R66). -/
def leadMs (s : State) (p : ProfileEntry) : Nat := p.minimumWarning.toNat * 1000 + s.cfg.amberMs

/-- The due delay of a new movement with an entry speed (R66). -/
def dueDelay (s : State) (m : Movement) (v : Nat) : Nat :=
  travelTime (s.governingProfile m).length.toNat v - s.leadMs (s.governingProfile m)

/-- The due time of a new movement, when it is timed and its due delay is above 0 (R64, R66). -/
def firstDueTime (s : State) (m : Movement) (t : Time) : Option Time :=
  match m.origin, m.entrySpeed with
  | .outer, some v =>
    if s.cfg.timed (s.governingEntry m) && s.dueDelay m v != 0 then some (after t (s.dueDelay m v)) else none
  | _, _ => none

/-- The state of a movement after a change (R64). -/
def stateAfter (s : State) (m : Movement) (c : Change) : MoveState :=
  match s.situation m with
  | .island => .crossing
  | .away => .leaving
  | .toward =>
    if c.fresh then (if (s.firstDueTime m c.time).isSome then .arriving else .due)
    else
      match m.state with
      | .arriving => if s.cfg.timed (s.governingEntry m) && !c.stripped then .arriving else .due
      | .standing => if c.passage then .due else .standing
      | .due | .crossing | .leaving => .due

/-- The timing fields on an entry into a state (R65, R70); `before` is the state before, absent for a new record. -/
def enterMoveState (s : State) (m : Movement) (before : Option MoveState) (st : MoveState) (t : Time) : Movement :=
  match st with
  | .arriving => { m with state := st, dueTime := s.firstDueTime m t, warnedAt := none, dueSince := none }
  | .due =>
    { m with state := st, dueTime := none, dueSince := some t, warnedAt := s.seq.redStart, longRaised := false }
  | .standing => { m with state := st, dueTime := none, dueSince := none }
  | .crossing =>
    { m with
      state := st
      dueTime := none
      dueSince := none
      warnedAt := if before = some .due ∨ before = some .crossing then m.warnedAt else s.seq.redStart }
  | .leaving => { m with state := st, dueTime := none, dueSince := none }

/-- The minimum warning of a movement's island profile in ms (R63, R71). -/
def islandWarningMs (s : State) (m : Movement) : Nat :=
  match (m.span.map SpanEntry.sect).find? s.isIsland with
  | some x => (s.cfg.profileAt (ConfigImage.mapIndex x m.dir)).minimumWarning.toNat * 1000
  | none => 0

/-- The warning of a movement that enters CROSSING at `t` was short (R71). -/
def shortWarned (s : State) (m : Movement) (t : Time) : Bool :=
  match m.warnedAt with
  | none => true
  | some w => !reached t (after w (s.islandWarningMs m))

/-- The time since DUE-since exceeds the maximum approach time (R72). -/
def overstayed (s : State) (m : Movement) : Bool :=
  match m.dueSince with
  | some t => m.state == .due && since s.now t > (s.governingProfile m).maximumApproach.toNat * 1000
  | none => false

/-- Raise LONG-APPROACH for a movement, once for each continuous period in DUE (R72). -/
def raiseLong (s : State) (k : SlotId) (m : Movement) : State :=
  if s.overstayed m && !m.longRaised then
    (s.setSlot k (some { m with longRaised := true })).raise .longApproach (.movement m.number)
  else s

/-- A movement of a slot enters a state (R65): its fields, the end of the long-approach supervision on an exit from DUE
(R72), and the short-warning test on an entry into CROSSING (R71). -/
def enterMovement (s : State) (k : SlotId) (m : Movement) (before : Option MoveState) (st : MoveState) (t : Time) :
    State :=
  let m' := s.enterMoveState m before st t
  let s := s.setSlot k (some m')
  let s := if before = some .due then s.clear .longApproach (.movement m.number) else s
  if st = .crossing ∧ s.shortWarned m' t = true then s.raise .shortWarning (.movement m.number) else s

/-- Recompute the state of the movement of a slot after a change handed (R64, R57). -/
def recompute (s : State) (k : SlotId) (c : Change) : State :=
  match s.slot k with
  | none => s
  | some m =>
    let st := s.stateAfter m c
    if c.fresh = true ∨ st ≠ m.state then s.enterMovement k m (if c.fresh then none else some m.state) st c.time
    else if c.passage then s.raiseLong k m
    else s

/-- Re-time an ARRIVING movement on a front-axle advance passage with a speed at the head its governing profile names
(R68). -/
def retime (s : State) (k : SlotId) (h : HeadId) (v : Option Nat) (t : Time) : State :=
  match s.slot k, v with
  | some m, some v =>
    let p := s.governingProfile m
    match m.state, m.dueTime with
    | .arriving, some due =>
      if p.advanceHead.toNat = h.val then
        let candidate := after t (travelTime p.advanceDistance.toNat v - s.leadMs p)
        let due := if reached candidate due then due else candidate
        let m := { m with dueTime := some due }
        if reached t due then s.enterMovement k m (some .arriving) .due t else s.setSlot k (some m)
      else s
    | _, _ => s
  | _, _ => s

/-- A movement is overdue for REOPEN-STANDING (R73). -/
def overdue (s : State) (m : Movement) : Bool :=
  match m.dueSince with
  | none => false
  | some t =>
    let p := s.governingProfile m
    let limit := p.haltGrace.toNat * 1000 + (match m.entrySpeed with
      | some v => travelTime p.length.toNat v
      | none => 60000)
    since s.now t > limit

/-- A movement wholly in one section whose toward entry has HALT (R73). -/
def haltedAlone (s : State) (m : Movement) : Bool :=
  match m.span with
  | [e] => s.cfg.halt (s.towardEntry e.sect m.dir)
  | _ => false

/-! ## Demand (R77 to R79) -/

/-- A section is protecting (R77): an island always, an approach when its toward entry has PROTECTING. -/
def isProtecting (s : State) (x : SectionId) : Bool :=
  match s.role x with
  | some .island => true
  | some (.approach side) => s.cfg.protecting (ConfigImage.mapIndex x side.toward)
  | none => false

/-- A section is protecting and DISTURBED or RESTORING (R77). -/
def withheld (s : State) (x : SectionId) : Bool :=
  s.isProtecting x && ((s.sect x).state == .disturbed || (s.sect x).state == .restoring)

/-- The traffic condition (R145): closure demand, leaving holds aside. -/
def trafficNow (s : State) : Bool := s.anyLive Movement.demanding || anySection s.withheld

/-- Closure demand (R77). -/
def demandNow (s : State) : Bool := s.trafficNow || s.stances.combinedHold

/-- The raise margin of an ARRIVING movement is reached (R79). -/
def blocks (s : State) (m : Movement) : Bool :=
  match m.state, m.dueTime with
  | .arriving, some due => reached (after s.now ((s.governingProfile m).raiseMargin.toNat * 1000)) due
  | _, _ => false

/-- The raise blocker (R79). -/
def blockerNow (s : State) : Bool := s.anyLive s.blocks

/-- Whether a section lies on a track (R18). -/
def onTrack (s : State) (t : TrackId) (x : SectionId) : Bool :=
  match (s.sect x).place with
  | some p => p.track == t
  | none => false

/-- A track has a used section (R39). -/
def trackUsed (s : State) (t : TrackId) : Bool := anySection (s.onTrack t)

/-- Per-track demand (R78): a track with no used section has none. -/
def trackDemand (s : State) (t : TrackId) : Bool :=
  s.trackUsed t &&
  (s.anyLive (fun m => m.track == t && m.demanding) || anySection fun x => s.onTrack t x && s.withheld x)

/-- The OCCUPIED predicate of a track (R39). -/
def trackOccupied (s : State) (t : TrackId) : Bool :=
  anySection fun x => s.onTrack t x &&
    ((s.sect x).state == .occupied || (s.sect x).state == .disturbed ||
      ((s.sect x).state == .restoring && (s.sect x).count != 0))

/-- A per-track answer as four bits, bit t - 1 for track t (R181). -/
def trackBits (p : TrackId → Bool) : BitVec 4 :=
  BitVec.ofBool (p 3) ++ BitVec.ofBool (p 2) ++ BitVec.ofBool (p 1) ++ BitVec.ofBool (p 0)

/-! ## Second train (R120) -/

/-- The movement of a slot has entered DUE since an earlier state of the table. -/
def enteredDue (s pre : State) (k : SlotId) : Bool :=
  match s.slot k with
  | none => false
  | some m =>
    m.state == .due &&
    match pre.slot k with
    | some old => old.number != m.number || old.state != .due
    | none => true

/-- A live movement on another track is DUE or CROSSING (R120). -/
def dueElsewhere (s : State) (t : TrackId) : Bool := s.anyLive fun m => m.track != t && m.demanding

/-- The second-train trigger in an event that began in `pre` (R120). -/
def secondTrainTriggered (s pre : State) : Bool :=
  s.seq.state.hearsSecondTrain &&
  (List.finRange 16).any fun k =>
    s.enteredDue pre k && match s.slot k with
      | some m => s.dueElsewhere m.track
      | none => false

end State

end Sys2Proof.Machine
end

