-- ==== Sys2Proof/Machine/Tracking.lean ====
section
/-!
DEFINITION. The section counter and the movement tracker: disturbance (R27, R28), restoration (R32 to R35), and the taking
of a passage, which both take as one event: the leaving step (R45), reversal and splitting (R52 to R54), the entering step
(R46 to R49), retirement (R50), and advance passages (R55).
-/
namespace Sys2Proof.Machine

/-- A passage (R8). -/
structure Passage where
  head : HeadId
  dir : Dir
  speed : Option Nat
  time : Time
deriving DecidableEq, Repr

/-- The largest count of a section (R18, R24). -/
def countLimit : Nat := 250

namespace Section

/-- The count changes; in CLEAR and OCCUPIED the state follows it (R21). -/
def setCount (r : Section) (n : Nat) : Section :=
  { r with
    count := n
    state := match r.state with
      | .clear | .occupied => if n = 0 then .clear else .occupied
      | .disturbed => .disturbed
      | .restoring => .restoring }

/-- The sweep entry end as an axle enters through an end (R33), judged on the count before it. -/
def sweepIn (r : Section) (x : Side) : Section :=
  if r.state = .restoring then
    { r with sweepEnd :=
        if r.count = 0 then some x
        else if r.sweepEnd = some x then some x
        else none }
  else r

/-- An axle leaves through an end: the count goes down, and the sweep entry end follows (R33). -/
def axleOut (r : Section) (x : Side) : Section :=
  let r := r.setCount (r.count - 1)
  if r.state = .restoring ∧ r.sweepEnd = some x then { r with sweepEnd := none } else r

/-- A sweep has come to its end: the section is empty again and its sweep entry end still stands (R34). -/
def swept (r : Section) : Bool := r.state == .restoring && r.count == 0 && r.sweepEnd.isSome

/-- The section CLEAR, after a restoration (R34, R35). -/
def restored (r : Section) : Section :=
  { r with state := .clear, count := 0, cause := none, restore := none, sweepEnd := none, list := [] }

/-- The section RESTORING, after an accepted SWEEP (R32). -/
def sweeping (r : Section) : Section := { r with state := .restoring, restore := some .sweep, sweepEnd := none }

/-- The section DISTURBED with a cause (R27). -/
def disturbedBy (r : Section) (c : DisturbCause) : Section :=
  { r with state := .disturbed, cause := some c, count := 0, restore := none, sweepEnd := none, list := [] }

/-- The section counts axles: it is CLEAR, OCCUPIED or RESTORING (R20). -/
def counted (r : Section) : Bool := r.state != .disturbed

end Section

namespace State

/-! ## Disturbance -/

/-- Strip a section from the movement of a slot (R28): left with no axles, it is retired without a notice. -/
def stripMovement (s : State) (x : SectionId) (k : SlotId) : State :=
  match s.slot k with
  | none => s
  | some m =>
    let m' := { m with span := m.span.filter fun e => e.sect ≠ x }
    if m'.span.isEmpty then s.retire k false else s.setSlot k (some m')

/-- A section enters DISTURBED, or is given a further cause (R27, R28). -/
def disturb (s : State) (x : SectionId) (c : DisturbCause) : State :=
  let s := (s.sect x).list.foldl (fun s k => s.stripMovement x k) s
  (s.setSection x ((s.sect x).disturbedBy c)).raise .sectionDisturbed (.sect x)

/-- Recompute the movements that lost an entry by stripping and still live (R28, R57). -/
def recomputeStripped (s : State) (l : List SlotId) (t : Time) : State :=
  l.foldl (fun s k => s.recompute k ⟨false, true, false, t⟩) s

/-! ## Restoration -/

/-- Clear the tracker's faults of a section restored to CLEAR or made unused (R49), in the order of log 7. -/
def clearFullFaults (s : State) (x : SectionId) : State :=
  (s.clear .sectionListFull (.sect x)).clear .movementTableFull (.sect x)

/-- A section is restored to CLEAR (R34, R35); the notice and the clears stand in the order of log 7. -/
def restore (s : State) (x : SectionId) (k : RestoreKind) : State :=
  match (s.sect x).place with
  | none => s
  | some p =>
    let s := (s.setSection x (s.sect x).restored).sectionLeft x
    ((s.notice (.restored x p.track k)).clear .sectionDisturbed (.sect x)).clearFullFaults x

end State

/-! ## The passage -/

/-- What the leaving step finds (R45). -/
structure Left where
  s : State
  carrier : Option SlotId
  origin : Origin

/-- What the entering step leaves (R46 to R49): the state, the movement the axle is given or was taken from, whether that
record is new in this passage, the movements stripped by a disturbance, and whether the axle went to outside. -/
structure Entered where
  s : State
  mover : Option SlotId
  fresh : Bool
  stripped : List SlotId
  outside : Bool

namespace State

/-- Take an axle out of a section for its carrier (R45): the count, the sweep, the span and the list. -/
def axleOut (s : State) (x : SectionId) (e : Side) (k : SlotId) (m : Movement) : State :=
  let m := { m with span := removeAxle x m.span }
  let r := (s.sect x).axleOut e
  let r := if m.holds x then r else { r with list := r.list.filter (· ≠ k) }
  let s := (s.setSlot k (some m)).setSection x r
  if r.swept then s.restore x .sweep else s

/-- The leaving step (R45). -/
def leavingStep (s : State) (p : Passage) : Left :=
  match s.sectionBeside p.head p.dir.behind with
  | none => ⟨s, none, .outer⟩
  | some x =>
    let r := s.sect x
    let e := p.dir.before
    if r.state = .disturbed then ⟨s, none, .fromDisturbed⟩
    else
      match nearestEnd e r.list with
      | none => ⟨s.disturb x .underflow, none, .fromDisturbed⟩
      | some k =>
        match s.slot k with
        | none => ⟨s.disturb x .underflow, none, .fromDisturbed⟩
        | some m => ⟨s.axleOut x e k m, some k, m.origin⟩

/-- An entry of a span lies on the side of head `p.head` that the passage comes from: in the section left or beyond it
(R52). -/
def behindHead (s : State) (p : Passage) (x : SectionId) : Bool :=
  match s.sectionBeside p.head p.dir.behind with
  | none => false
  | some l => s.position x == s.position l || ahead p.dir (s.position l) (s.position x)

/-- The carrier is astride the head (R52). -/
def astride (s : State) (p : Passage) (m : Movement) : Bool :=
  m.span.any (fun e => s.behindHead p e.sect) && m.span.any fun e => !s.behindHead p e.sect

/-- The whole reversal of a movement (R52). -/
def reversedWhole (m : Movement) (d : Dir) : Movement :=
  { m with dir := d, reversed := true, span := m.span.reverse, rear := none, advance := none }

/-- The record of the near part of a split (R53); its state is assigned in the same event. -/
def splitRecord (s : State) (p : Passage) (m : Movement) (near : List SpanEntry) : Movement where
  number := s.nextNumber
  track := m.track
  dir := p.dir
  state := .due
  span := near.reverse
  entrySpeed := p.speed
  origin := .reversedHere
  dueTime := none
  warnedAt := none
  dueSince := none
  lastAxle := p.time
  rear := none
  advance := none
  crossed := false
  crossingAxles := 0
  reversed := true
  longRaised := false

/-- Replace one movement by another in the lists of the sections of a span (R53). -/
def replaceInLists (s : State) (span : List SpanEntry) (old new : SlotId) : State :=
  span.foldl (fun s e => s.setSection e.sect
    { s.sect e.sect with list := (s.sect e.sect).list.map fun k => if k = old then new else k }) s

/-- Split the carrier at the head, the near part taking a free slot (R53). -/
def split (s : State) (p : Passage) (k new : SlotId) (m : Movement) : State :=
  let near := m.span.filter fun e => !s.behindHead p e.sect
  let far := m.span.filter fun e => s.behindHead p e.sect
  ((s.create new (s.splitRecord p m near)).setSlot k (some { m with span := far })).replaceInLists near k new

/-- Disturb the section entered for want of room (R49): its own fault, then the tracker's (log 7). -/
def disturbFull (s : State) (x : SectionId) (c : DisturbCause) (k : FaultKind) : State :=
  (s.disturb x c).raise k (.sect x)

/-- Count an axle into a section and put its movement in the list (R20, R33, R43). -/
def axleIn (s : State) (x : SectionId) (e : Side) (k : SlotId) : State :=
  let r := (s.sect x).sweepIn e
  let r := r.setCount (r.count + 1)
  s.setSection x (if r.list.contains k then r else { r with list := placeAtEnd e k r.list })

/-- A movement that an axle of it is counted into a section: its span, and the crossed flag and crossing axles (R46). -/
def given (s : State) (m : Movement) (x : SectionId) (t : Time) : Movement :=
  { m with
    span := addAxle s.position m.dir x m.span
    lastAxle := t
    crossed := m.crossed || s.isIsland x
    crossingAxles := if s.isIsland x then min 255 (m.crossingAxles + 1) else m.crossingAxles }

/-- Give an axle to a movement of a slot (R46). -/
def giveAxle (s : State) (x : SectionId) (e : Side) (k : SlotId) (t : Time) : State :=
  match s.slot k with
  | none => s
  | some m => (s.setSlot k (some (s.given m x t))).axleIn x e k

/-- The last-axle time of a movement that a passage is attributed to (R44). -/
def touch (s : State) (k : SlotId) (t : Time) : State :=
  match s.slot k with
  | none => s
  | some m => s.setSlot k (some { m with lastAxle := t })

/-- The entering step with a carrier (R46). An axle that meets both a count of 250 and a list of four other movements, on which
R24 and R26 both act, is taken as OVERFLOW: the model's reading, after the order R47 gives an axle without a carrier (log 46). -/
def enterCarried (s : State) (p : Passage) (k : SlotId) (fresh : Bool) : Entered :=
  let s := s.touch k p.time
  match s.sectionBeside p.head p.dir.before with
  | none => ⟨s, some k, fresh, [], true⟩
  | some x =>
    let r := s.sect x
    if r.state = .disturbed then ⟨s, some k, fresh, [], false⟩
    else if r.count ≥ countLimit then ⟨s.disturb x .overflow, some k, fresh, r.list, false⟩
    else if !r.list.contains k && r.list.length ≥ listCapacity then
      ⟨s.disturbFull x .listFull .sectionListFull, some k, fresh, r.list, false⟩
    else ⟨s.giveAxle x p.dir.behind k p.time, some k, fresh, [], false⟩

/-- An axle without a carrier joins a movement (R47). -/
def joins (s : State) (p : Passage) (x : SectionId) (m : Movement) : Bool :=
  m.dir == p.dir && (m.span.getLast?.map SpanEntry.sect) == some x &&
  match m.rear with
  | some r => r.head == p.head && since p.time r.time ≤ s.cfg.couplingGapMs
  | none => false

/-- The record of a new movement (R48); its span, crossed flag and crossing axles are those of its first axle, and its state
is assigned in the same event. -/
def newRecord (s : State) (p : Passage) (o : Origin) (track : TrackId) : Movement where
  number := s.nextNumber
  track := track
  dir := p.dir
  state := .due
  span := []
  entrySpeed := p.speed
  origin := o
  dueTime := none
  warnedAt := none
  dueSince := none
  lastAxle := p.time
  rear := some ⟨p.head, p.time⟩
  advance := none
  crossed := false
  crossingAxles := 0
  reversed := false
  longRaised := false

/-- An axle starts a new movement, or finds no room (R48, R49). -/
def startMovement (s : State) (p : Passage) (o : Origin) (x : SectionId) (track : TrackId) : Entered :=
  let r := s.sect x
  match s.freeSlot with
  | none => ⟨s.disturbFull x .tableFull .movementTableFull, none, false, r.list, false⟩
  | some k =>
    if r.list.length ≥ listCapacity then ⟨s.disturbFull x .listFull .sectionListFull, none, false, r.list, false⟩
    else ⟨(s.create k (s.newRecord p o track)).giveAxle x p.dir.behind k p.time, some k, true, [], false⟩

/-- The entering step without a carrier (R47, R48). -/
def enterUncarried (s : State) (p : Passage) (o : Origin) : Entered :=
  match s.sectionBeside p.head p.dir.before with
  | none => ⟨s, none, false, [], true⟩
  | some x =>
    let r := s.sect x
    match r.place with
    | none => ⟨s, none, false, [], false⟩
    | some place =>
      if r.state = .disturbed then ⟨s, none, false, [], false⟩
      else if r.count ≥ countLimit then ⟨s.disturb x .overflow, none, false, r.list, false⟩
      else
        match nearestEnd p.dir.behind r.list with
        | none => s.startMovement p o x place.track
        | some k =>
          match s.slot k with
          | none => s.startMovement p o x place.track
          | some m =>
            if s.joins p x m then
              let s := s.setSlot k (some { m with rear := some ⟨p.head, p.time⟩ })
              ⟨s.giveAxle x p.dir.behind k p.time, some k, false, [], false⟩
            else s.startMovement p o x place.track

/-- The entering step after a carrier against the direction of the passage (R52 to R54). -/
def enterReversed (s : State) (p : Passage) (k : SlotId) (m : Movement) : Entered :=
  match s.sectionBeside p.head p.dir.before with
  | none => (s.setSlot k (some (reversedWhole m p.dir))).enterCarried p k false
  | some x =>
    let r := s.sect x
    if r.state = .disturbed ∨ s.astride p m = false then
      (s.setSlot k (some (reversedWhole m p.dir))).enterCarried p k false
    else
      match s.freeSlot with
      | some new => (s.split p k new m).enterCarried p new true
      | none => ⟨(s.touch k p.time).disturbFull x .tableFull .movementTableFull, some k, false, r.list, false⟩

/-- The entering step, by what the leaving step found (R44 to R54). -/
def enteringStep (l : Left) (p : Passage) : Entered :=
  match l.carrier with
  | none => l.s.enterUncarried p l.origin
  | some k =>
    match l.s.slot k with
    | none => l.s.enterUncarried p l.origin
    | some m => if m.dir = p.dir then l.s.enterCarried p k false else l.s.enterReversed p k m

/-- Retire the movement of a slot if no axle is left to it (R44, R50). -/
def retireEmpty (s : State) (k : SlotId) (outside : Bool) : State :=
  match s.slot k with
  | none => s
  | some m => if m.totalAxles = 0 then s.retire k (outside && m.crossed) else s

/-- The change a passage hands for the movement of a slot: none where the passage did not change it (R57). -/
def changeOf (e : Entered) (carrier : Option SlotId) (t : Time) (k : SlotId) : Option Change :=
  if e.mover = some k ∨ carrier = some k ∨ k ∈ e.stripped then
    some ⟨e.fresh && e.mover == some k, e.stripped.contains k, e.mover == some k, t⟩
  else none

/-- A passage at a head that bounds a section (R44). -/
def boundaryPassage (s : State) (p : Passage) : State :=
  let l := s.leavingStep p
  let e := enteringStep l p
  let s := match l.carrier with
    | some k => e.s.retireEmpty k e.outside
    | none => e.s
  (List.finRange 16).foldl (fun s k => match changeOf e l.carrier p.time k with
    | some c => s.recompute k c
    | none => s) s

/-! ## Advance passages (R55) -/

/-- The section in which the active configuration places a head (R55). -/
def placedIn (s : State) (h : HeadId) : Option SectionId :=
  (List.finRange 10).find? fun x =>
    match s.role x with
    | some (.approach side) =>
      (s.cfg.profileAt (ConfigImage.mapIndex x side.toward)).advanceHead.toNat == h.val
    | _ => false

/-- The foremost of some movements of a list in a direction: the last for AB, the first for BA (R55). -/
def foremost (d : Dir) (l : List SlotId) : Option SlotId := nearestEnd d.before l

/-- A movement of a list takes an advance passage as a following axle (R55). -/
def follows (s : State) (p : Passage) (k : SlotId) : Bool :=
  match s.slot k with
  | some m =>
    m.dir == p.dir &&
    match m.advance with
    | some a => a.head == p.head && since p.time a.time ≤ s.cfg.couplingGapMs
    | none => false
  | none => false

/-- A movement of a list may take an advance passage as its front axle (R55). -/
def fronts (s : State) (p : Passage) (k : SlotId) : Bool :=
  match s.slot k with
  | some m =>
    m.dir == p.dir &&
    match m.advance with
    | some a => a.head != p.head
    | none => true
  | none => false

/-- A movement takes an advance passage (R55, R57, R76). -/
def takeAdvance (s : State) (p : Passage) (k : SlotId) : State :=
  match s.slot k with
  | none => s
  | some m =>
    (s.setSlot k (some { m with advance := some ⟨p.head, p.time⟩, lastAxle := p.time })).recompute k
      ⟨false, false, true, p.time⟩

/-- A passage at a head that bounds no section (R55, R68). -/
def advancePassage (s : State) (p : Passage) : State :=
  match s.placedIn p.head with
  | none => s
  | some x =>
    let r := s.sect x
    if r.state = .disturbed then s
    else
      match foremost p.dir (r.list.filter (s.follows p)) with
      | some k => s.takeAdvance p k
      | none =>
        match foremost p.dir (r.list.filter (s.fronts p)) with
        | some k => (s.takeAdvance p k).retime k p.head p.speed p.time
        | none => s

/-- A passage, taken by the section counter and the tracker as one event (R8, R20, R44). -/
def passage (s : State) (p : Passage) : State :=
  if s.bounds p.head then s.boundaryPassage p else s.advancePassage p

end State

end Sys2Proof.Machine
end

