-- ==== Sys2Proof/Machine/Finish.lean ====
section
/-!
DEFINITION. The end of an event: what the blocks hand to one another inside it, in the order of log 7. `State.finish` takes
the state an event began in and the state its own effect has left, and answers the state after the event. It recomputes
demand, the raise blocker, the traffic and major lamp conditions, the cause set; lets the sequencer make its transition;
follows with the second train, the lamps, the audible programme, the disagreement supervision, the proven flag, the
generation number, the CROSSING-STATUS and the attention lines.
-/
namespace Sys2Proof.Machine

/-- The length of an attention pulse in hundredths of a ms (R180): 50 µs. -/
def pulseLength : Nat := 5

/-- The per-port update of the port records. -/
def Ports.mapPorts (v : Ports) (f : Port → PortRecord → PortRecord) : Ports :=
  { v with
    laneA := f .laneA v.laneA
    laneB := f .laneB v.laneB
    signaller := f .signaller v.signaller
    service := f .service v.service }

namespace State

/-- Demand, the raise blocker and the traffic condition are formed anew and handed (R77, R79, R145): demand that appears
drops every consent (R92), traffic that appears ends a boom test (R146). -/
def handApproach (s : State) : State :=
  let old := s.approach
  let s := s.onApproach fun _ => ⟨s.demandNow, s.blockerNow, s.trafficNow⟩
  let s := if s.approach.demand && !old.demand then s.onStances Stances.dropConsents else s
  if s.approach.traffic && !old.traffic then s.endBoomTests else s

/-- The major lamp condition is formed anew and handed with the boom states, and the cause set follows (R115, R142). -/
def handOutputs (s : State) : State :=
  let appeared := s.out.lamps.major && !s.out.major
  (s.onOut fun o => { o with major := o.lamps.major }).gatherCauses appeared

/-- The second-train timer of an event that began in `pre` (R120). -/
def followSecondTrain (s pre : State) : State :=
  if s.secondTrainTriggered pre then s.onSeq fun q => { q with secondTrain := some (after s.now secondTrainTimerMs) }
  else s

/-- The drives of the lamps and the audible programme follow, while the outputs are driven (R137, R143, R148). -/
def followOutputs (s : State) : State :=
  if s.out.driven then
    s.onOut fun o =>
      { o.driveLamps s.seq.state s.now s.cfg.phaseMs with
        audible := o.audible.hand s.cfg (s.seq.programme o.booms) s.now }
  else s

/-- Disagreement is supervised (R94). -/
def disagreeing (s : State) : Bool :=
  s.cfg.dual && s.raiseOtherwise && (s.lane .a).contact == .present && (s.lane .b).contact == .present &&
  (s.lane .a).consent.isSome != (s.lane .b).consent.isSome

/-- The disagreement supervision begins, goes on or ends (R94). -/
def followDisagreement (s : State) : State :=
  s.onStances fun v =>
    { v with disagreement := if s.disagreeing then some (v.disagreement.getD ⟨s.now, false⟩) else none }

/-- The proven flag (R119). -/
def followProven (s : State) : State := s.onSeq fun q => { q with proven := s.provenNow }

/-- Some movement record differs from that of an earlier state in a field that R40 gives it. -/
def movementsDiffer (s pre : State) : Bool :=
  (List.finRange 16).any fun k => (s.slot k).map Movement.record != (pre.slot k).map Movement.record

/-- A section or movement record has changed since an earlier state (R58): a field of it differs. A further cause equal to
the one that stands is therefore no change (log 41). -/
def recordsChanged (s pre : State) : Bool := s.sections != pre.sections || s.movementsDiffer pre

/-- The generation number advances (R58). -/
def advanceGeneration (s : State) (changed : Bool) : State :=
  if changed then s.onTracker fun t => { t with generation := t.generation + 1 } else s

/-- The CROSSING-STATUS of this moment (R163); `cause` the reset cause, for the first after a reset (R164). -/
def statusNotice (s : State) (cause : Option (ResetKind × Option ResetKind)) : StatusNotice where
  state := s.seq.state
  closure := s.seq.closure
  proven := s.seq.proven
  mode := s.mon.mode
  supply := s.mon.supply
  occupied := trackBits s.trackOccupied
  demand := trackBits s.trackDemand
  seconds := s.seconds
  cause := cause

/-- The event changed what a CROSSING-STATUS is built for (R163). -/
def statusDue (s pre : State) : Bool :=
  s.seq.state != pre.seq.state || s.seq.proven != pre.seq.proven || s.mon.mode != pre.mon.mode ||
  s.mon.supply != pre.mon.supply

/-- Queue the CROSSING-STATUS of an event (R124, R163, R164); none in STARTING (R170). -/
def followStatus (s pre : State) : State :=
  if s.statusDue pre && s.mon.mode != .starting then s.onFaults fun u => u.queueStatus (s.statusNotice none) else s

/-- The attention line of a port as it stands without a new pulse (R180). -/
def lineLevel (s : State) (r : PortRecord) : Bool :=
  match r.mode with
  | .off => false
  | .notice => !s.faults.queue.isEmpty
  | .change | .changeAndStep => r.pulseEnd.isSome

/-- A port is pulsed by an event (R180). -/
def pulsed (r : PortRecord) (changed stepped : Bool) : Bool :=
  match r.mode with
  | .off | .notice => false
  | .change => changed
  | .changeAndStep => changed || stepped

/-- The attention line of one port at the end of an event (R180); Lane B's stays deasserted in SINGLE. -/
def driveLine (s : State) (changed stepped : Bool) (p : Port) (r : PortRecord) : PortRecord :=
  if p = .laneB ∧ s.cfg.dual = false then { r with line := false, pulseEnd := none }
  else
    let r := if pulsed r changed stepped then { r with pulseEnd := some (s.uptime + pulseLength) } else r
    { r with line := s.lineLevel r }

/-- The attention lines at the end of an event (R180). -/
def driveLines (s : State) (changed stepped : Bool) : State :=
  s.onPorts fun v => v.mapPorts (s.driveLine changed stepped)

/-- What an event hands round before the sequencer's records are judged. -/
def handRound (s pre : State) : State :=
  let s := s.handApproach
  let appeared := s.approach.demand && !pre.approach.demand
  ((s.handOutputs.react appeared).followSecondTrain pre).followOutputs.followDisagreement.followProven

/-- The end of an event that began in `pre` and whose own effect has left `s`; `topology` says that it is a commit that
changes the topology, which always advances the generation number (R58). -/
def finish (pre s : State) (topology : Bool := false) : State :=
  let s := s.handRound pre
  let changed := topology || s.recordsChanged pre
  let s := (s.advanceGeneration changed).followStatus pre
  s.driveLines changed (s.seq.state != pre.seq.state)

/-- An event of the field, of a timer or of the store: the time moves on, then its effect and what it hands round. Where
its effect is none (the timer does not run, the condition does not hold), the time alone has moved. While the part is held
the clock stands and nothing acts (R190). -/
def event (s : State) (dt : Nat) (effect : State → Option State) : State :=
  if s.mon.held then s
  else
    let s := s.advance dt
    match effect s with
    | some t => finish s t
    | none => s

end State

end Sys2Proof.Machine
end

