-- ==== Sys2Proof/Machine/Operands.lean ====
section
/-!
DEFINITION. The operands of the field's commands: the level a raw input has shown and for how long, as the conditioned
change it makes and the time recorded for it (R2, R3, R14, R127), and the codes that a request's octets carry (R181).
-/
namespace Sys2Proof

/-- The boom a code names (R181). -/
def BoomId.ofCode (o : Octet) : Option BoomId :=
  match o.toNat with
  | 0 => some .entry1 | 1 => some .exit1 | 2 => some .entry2 | 3 => some .exit2 | _ => none

/-- The channel a code names (R181). -/
def Channel.ofCode (o : Octet) : Option Channel :=
  match o.toNat with
  | 0 => some .amber1 | 1 => some .redLeft1 | 2 => some .redRight1 | 3 => some .amber2 | 4 => some .redLeft2
  | 5 => some .redRight2 | _ => none

namespace Machine

/-- The direction of a boom test that a code names: RAISE 0, LOWER 1 (R145, log 18). -/
def Order.ofCode (o : Octet) : Option Order :=
  match o.toNat with
  | 0 => some .raise | 1 => some .lower | _ => none

/-- The restore kind that a code names: SWEEP 0, DIRECT 1 (R181). -/
def RestoreKind.ofCode (o : Octet) : Option RestoreKind :=
  match o.toNat with
  | 0 => some .sweep | 1 => some .direct | _ => none

/-- The attention mode that a code names (R179). -/
def AttentionMode.ofCode (o : Octet) : Option AttentionMode :=
  match o.toNat with
  | 0 => some .off | 1 => some .notice | 2 => some .change | 3 => some .changeAndStep | _ => none

/-- The section a number names, S0 to S9 (R30). -/
def sectionOf (o : Octet) : Option SectionId := if h : o.toNat < 10 then some ⟨o.toNat, h⟩ else none

/-- The start of a run of `held` hundredths of a ms that ends at `uptime`, no earlier than `from_`, the moment at which
conditioning began (R14, R127). -/
def runStart (uptime held from_ : Nat) : Nat := max (uptime - held) from_

/-- A run that has stood for the debounce time: its start (R2, R127). -/
def settledRun (uptime held from_ debounce : Nat) : Option Nat :=
  if runStart uptime held from_ + debounce ≤ uptime then some (runStart uptime held from_) else none

end Machine

end Sys2Proof
end

