-- ==== Sys2Proof/Machine/Heads.lean ====
section
/-!
DEFINITION. The head decoders (R1 to R16): the sensor event and the decoding of one wheel, the measured speed, head failure,
stuck supervision, recovery, and the beginning of observation; and the meanings of SENSOR_EVENT, SENSOR_STUCK_EXPIRY and
HEAD_RECOVERY.
-/
namespace Sys2Proof.Machine

/-- The time both sensors of a FAILED head must be QUIET, in ms (R13). -/
def headRecoveryMs : Nat := 5000

/-- The partial count at which a head fails (R10). -/
def partialLimit : Nat := 3

/-- The outcomes of a sensor event (R5, R7). -/
inductive WheelOutcome where
  | nothing
  | axle (dir : Dir) (speed : Option Nat)
  | retreat
  | partialWheel
deriving DecidableEq, Repr

/-- The measured speed of a passage (R6): `spacing` in mm, the interval in hundredths of a ms. -/
def measuredSpeed (spacing interval : Nat) : Option Nat :=
  if interval = 0 then none
  else
    let v := 360 * spacing / interval
    if 2 ≤ v ∧ v ≤ 300 then some v else none

namespace Head

/-- The sensor of a side. -/
def sensor (r : Head) : Side → Sensor
  | .a => r.sensorA
  | .b => r.sensorB

/-- Write the sensor of a side. -/
def setSensor (r : Head) (x : Side) (v : Sensor) : Head :=
  match x with
  | .a => { r with sensorA := v }
  | .b => { r with sensorB := v }

/-- Both sensors are QUIET. -/
def bothQuiet (r : Head) : Bool := !r.sensorA.occupied && !r.sensorB.occupied

/-- The passage under way ends: its fields become absent (R5, R11). -/
def noPassage (r : Head) : Head := { r with entrySide := none, capture := none, speed := none, heldSide := none }

/-- The sensor field and quiet-since after a sensor event (R5, R4). -/
def record (r : Head) (x : Side) (rise : Bool) (t : Time) : Head :=
  let r := r.setSensor x ⟨rise, t, false⟩
  { r with quietSince := if rise then none else if r.bothQuiet then some t else none }

/-- The direction of a passage by its entry side (R7). -/
def passageDir : Side → Dir
  | .a => .ab
  | .b => .ba

/-- The decoder's step on a sensor event (R5, R6, R7); `x` is the sensor, `t` the recorded time, and the sensor fields are
already those after the event. -/
def decode (r : Head) (spacing : Nat) (x : Side) (rise : Bool) (t : FineTime) : Head × WheelOutcome :=
  match r.decoder, rise, r.entrySide with
  | .settling, _, _ =>
    (if r.failure.isNone && r.bothQuiet then { r with decoder := .quiet } else r, .nothing)
  | .quiet, true, _ => ({ r with decoder := .entering, entrySide := some x, capture := some t }, .nothing)
  | .entering, true, some e =>
    if x = e then (r, .nothing)
    else
      let speed := match r.capture with
        | some c => measuredSpeed spacing (fineInterval t c)
        | none => none
      ({ r with decoder := .spanned, speed := speed }, .nothing)
  | .entering, false, some e =>
    if x = e then ({ r.noPassage with decoder := .quiet, partials := r.partials + 1 }, .partialWheel) else (r, .nothing)
  | .spanned, false, some _ => ({ r with decoder := .leaving, heldSide := some x.other }, .nothing)
  | .leaving, true, some _ => ({ r with decoder := .spanned, heldSide := none }, .nothing)
  | .leaving, false, some e =>
    if x = e then ({ r.noPassage with decoder := .quiet }, .retreat)
    else
      ({ r.noPassage with
          decoder := .quiet
          partials := 0
          lastPassage := some ⟨passageDir e, r.speed, t.ms⟩ },
        .axle (passageDir e) r.speed)
  | _, _, _ => (r, .nothing)

/-- A head begins observing (R14). -/
def observe (r : Head) (uptime : Nat) : Head :=
  { r.noPassage with
    decoder := .settling
    sensorA := Sensor.assumed (clockAt uptime)
    sensorB := Sensor.assumed (clockAt uptime)
    quietSince := none
    observedFrom := some uptime }

/-- The record of a head after a restart (R15). -/
def restarted (r : Head) : Head := { Head.initial with failure := r.failure, partials := r.partials }

end Head

namespace State

/-- A head record. -/
def head (s : State) (h : HeadId) : Head := s.heads[h]

/-- Write a head record. -/
def setHead (s : State) (h : HeadId) (r : Head) : State := s.onHeads fun v => v.set h r

/-- Both sections beside a head become DISTURBED with cause HEAD-FAILED (R25), and the movements they strip are recomputed.
The A side first is the model's choice (log 7). -/
def reportFailure (s : State) (h : HeadId) : State :=
  let xs := (s.sectionBeside h .a).toList ++ (s.sectionBeside h .b).toList
  let stripped := xs.flatMap fun x => (s.sect x).list
  (xs.foldl (fun s x => s.disturb x .headFailed) s).recomputeStripped stripped s.now

/-- The kind of fault of a head failure (R11). -/
def failureFault : HeadFailure → FaultKind
  | .sensorStuck => .sensorStuck
  | .sensorImbalance => .sensorImbalance

/-- A WORKING head fails (R11). -/
def failHead (s : State) (h : HeadId) (k : HeadFailure) : State :=
  let s := s.setHead h { (s.head h).noPassage with failure := some k, decoder := .settling }
  (s.reportFailure h).raise (failureFault k) (.head h)

/-- What the block does with an outcome of a head (R7, R8, R10). -/
def takeOutcome (s : State) (h : HeadId) (o : WheelOutcome) (t : Time) : State :=
  match o with
  | .nothing | .retreat => s
  | .axle d v => s.passage ⟨h, d, v, t⟩
  | .partialWheel => if (s.head h).partials ≥ partialLimit then s.failHead h .sensorImbalance else s

/-- The effect of a sensor event: none while the head is not observed, while the run has not stood for the debounce time,
or when it shows the state the sensor has (R2, R14). -/
def sensorEffect (h : HeadId) (x : Side) (level : Level) (held : Nat) (s : State) : Option State :=
  let r := s.head h
  match r.observedFrom with
  | none => none
  | some start =>
    match settledRun s.uptime held start (s.cfg.debounce h) with
    | none => none
    | some run =>
      let rise : Bool := level == s.cfg.occupiedLevel h x
      if rise = (r.sensor x).occupied then none
      else
        let t := fineAt run
        let (r, o) := (r.record x rise t.ms).decode (s.cfg.spacing h) x rise t
        some ((s.setHead h r).takeOutcome h o t.ms)

/-- A sensor's stuck limit has been exceeded and not yet acted on (R9). -/
def stuck (s : State) (h : HeadId) (x : Side) : Bool :=
  let v := (s.head h).sensor x
  (s.head h).observedFrom.isSome && v.occupied && !v.stuckTaken && since s.now v.changed > s.cfg.stuckMs h

/-- The effect of a stuck limit exceeded (R9, R11, R12). -/
def stuckEffect (h : HeadId) (x : Side) (s : State) : Option State :=
  if s.stuck h x then
    let r := s.head h
    let s := s.setHead h (r.setSensor x { r.sensor x with stuckTaken := true })
    match r.failure with
    | none => some (s.failHead h .sensorStuck)
    | some _ =>
      some ((s.setHead h { s.head h with failure := some .sensorStuck }).raise .sensorStuck (.head h))
  else none

/-- A FAILED head's sensors have been QUIET together for 5 s (R13). -/
def recovered (s : State) (h : HeadId) : Bool :=
  (s.head h).failure.isSome &&
  match (s.head h).quietSince with
  | some t => since s.now t ≥ headRecoveryMs
  | none => false

/-- The effect of a head's recovery (R13). R13 and R152 give its two clears no order: SENSOR-STUCK before SENSOR-IMBALANCE is the
model's choice (log 7). -/
def recoveryEffect (h : HeadId) (s : State) : Option State :=
  if s.recovered h then
    let s := s.setHead h { s.head h with failure := none, decoder := .quiet, partials := 0 }
    some ((s.clear .sensorStuck (.head h)).clear .sensorImbalance (.head h))
  else none

end State

/-- SENSOR_EVENT (R2, R5). -/
def execSensorEvent (dt : Nat) (h : HeadId) (x : Side) (level : Level) (held : Nat) (s : State) :
    Host.Outcome State Fault Refusal :=
  .next (s.event dt (State.sensorEffect h x level held))

/-- SENSOR_STUCK_EXPIRY (R9). -/
def execSensorStuckExpiry (dt : Nat) (h : HeadId) (x : Side) (s : State) : Host.Outcome State Fault Refusal :=
  .next (s.event dt (State.stuckEffect h x))

/-- HEAD_RECOVERY (R13). -/
def execHeadRecovery (dt : Nat) (h : HeadId) (s : State) : Host.Outcome State Fault Refusal :=
  .next (s.event dt (State.recoveryEffect h))

end Sys2Proof.Machine
end

