-- ==== Sys2Proof/Machine/Flags.lean ====
section
/-!
DEFINITION. Answers and flags the masters read: the eight TEST predicates (R39, R83, R178), and the sets of flags of STATUS
(R181), each from bit 0 in the order listed.
-/
namespace Sys2Proof.Machine

/-- The eight predicates of TEST (R178), in the order of their codes. -/
inductive Predicate where
  | occupied | demand | crossing | arriving | standing | disturbed | approachAClear | approachBClear
deriving DecidableEq, Repr

/-- The predicate a code names (R178). -/
def Predicate.ofCode (o : Octet) : Option Predicate :=
  match o.toNat with
  | 0 => some .occupied | 1 => some .demand | 2 => some .crossing | 3 => some .arriving | 4 => some .standing
  | 5 => some .disturbed | 6 => some .approachAClear | 7 => some .approachBClear | _ => none

namespace State

/-- A live movement of a track is in a state (R83). -/
def trackMoves (s : State) (t : TrackId) (st : MoveState) : Bool := s.anyLive fun m => m.track == t && m.state == st

/-- Every approach section of a side of a track is CLEAR, or there is none (R39). -/
def approachesClear (s : State) (t : TrackId) (x : Side) : Bool :=
  !anySection fun k => s.onTrack t k && s.role k == some (.approach x) && (s.sect k).state != .clear

/-- The answer of a predicate for a track (R39, R83, R178). -/
def answer (s : State) (p : Predicate) (t : TrackId) : Bool :=
  s.trackUsed t &&
  match p with
  | .occupied => s.trackOccupied t
  | .demand => s.trackDemand t
  | .crossing => s.trackMoves t .crossing
  | .arriving => s.trackMoves t .arriving
  | .standing => s.trackMoves t .standing
  | .disturbed => anySection fun k => s.onTrack t k && ((s.sect k).state == .disturbed || (s.sect k).state == .restoring)
  | .approachAClear => s.approachesClear t .a
  | .approachBClear => s.approachesClear t .b

/-- The flags of the sequencer group of STATUS (R124, R181). -/
def sequencerFlags (s : State) : Nat :=
  flags [s.seq.proven, s.seq.redStart.isSome, s.seq.minClosed == some .elapsed, s.raiseOtherwise, s.raisePermitted,
    s.seq.secondTrain.isSome]

/-- The cause set as flags (R181). -/
def causeFlags (s : State) : Nat :=
  flags [s.seq.causes.boom, s.seq.causes.lamp, s.seq.causes.start, s.seq.causes.config]

/-- The flags of the stance summary (R101, R181). -/
def stanceFlags (s : State) : Nat :=
  flags [s.stances.laneA.hold, s.stances.laneB.hold, s.stances.signallerHold, s.stances.serviceHold,
    s.stances.combinedHold, s.consentComplete, s.stances.permit, s.stances.maintenance]

/-- The presence flags of the stance summary (R181). -/
def presenceFlags (s : State) : Nat :=
  flags [s.stances.laneA.consent.isSome, s.stances.laneB.consent.isSome, s.stances.laneA.agreement.isSome,
    s.stances.laneB.agreement.isSome]

end State

/-- The order and source flags of a boom (R181). -/
def Boom.orderFlags (b : Boom) : Nat := flags [b.order == .lower, b.source == .test]

/-- The failure kinds of a boom as flags (R181). -/
def BoomFailures.flags (f : BoomFailures) : Nat := Machine.flags [f.timeout, f.conflict, f.displaced]

/-- The flags of a channel (R181). -/
def Lamp.flags (l : Lamp) : Nat := Machine.flags [l.failed, l.stray, l.underTest]

/-- The flags of the outputs together (R181): lamp test running, major lamp condition, coil OPEN-CIRCUIT. -/
def Outputs.flags (o : Outputs) : Nat := Machine.flags [o.lampTest.isSome, o.major, o.audible.openCircuit]

/-- The flags of a movement slot (R181). -/
def Movement.flags (m : Movement) : Nat :=
  Machine.flags [m.crossed, m.reversed, m.dueTime.isSome, m.warnedAt.isSome, m.dueSince.isSome, m.rear.isSome,
    m.advance.isSome]

/-- The flags of a head (R181): capture, quiet-since, last passage present. -/
def Head.flags (r : Head) : Nat := Machine.flags [r.capture.isSome, r.quietSince.isSome, r.lastPassage.isSome]

end Sys2Proof.Machine
end

