-- ==== Sys2Proof/Machine/Layouts.lean ====
section
/-!
DEFINITION. The octets of replies, notices and records (R181): reply frames, notices, read items, the STATUS layout and the
entries of READ-WINDOW. Codes of enumerations follow the order in which R181 and the rules it names list their values.
-/
namespace Sys2Proof

/-- The code of a direction: AB 0, BA 1 (R181). -/
def Dir.code : Dir → Nat
  | .ab => 0 | .ba => 1

/-- The code of a boom (R181). -/
def BoomId.code : BoomId → Nat
  | .entry1 => 0 | .exit1 => 1 | .entry2 => 2 | .exit2 => 3

/-- The code of a channel, in the order of R136 (R181). -/
def Channel.code : Channel → Nat
  | .amber1 => 0 | .redLeft1 => 1 | .redRight1 => 2 | .amber2 => 3 | .redLeft2 => 4 | .redRight2 => 5

/-- The code of a lane (R181). -/
def Lane.code : Lane → Nat
  | .a => 0 | .b => 1

namespace Machine

/-! ## Codes -/

/-- The code of a head, FF when absent (R181). -/
def headCode : Option HeadId → Octet
  | some h => octet h.val
  | none => 0xFF

/-- The code of a side where it may be absent: absent 0, A 1, B 2 (R181). -/
def sideCode : Option Side → Nat
  | none => 0 | some .a => 1 | some .b => 2

/-- The code of a fault kind: 1 to 22 in the order of R151 (R181). -/
def FaultKind.code : FaultKind → Nat
  | .sensorStuck => 1 | .sensorImbalance => 2 | .sectionDisturbed => 3 | .movementTableFull => 4 | .sectionListFull => 5
  | .shortWarning => 6 | .longApproach => 7 | .redLampOut => 8 | .amberLampOut => 9 | .lampStrayCurrent => 10
  | .boomTravelTimeout => 11 | .boomContactConflict => 12 | .boomDisplaced => 13 | .audibleOpenCircuit => 14
  | .laneLost => 15 | .laneDisagree => 16 | .supplyWarn => 17 | .supplyLow => 18 | .partRestarted => 19
  | .configInvalid => 20 | .storeWriteFailed => 21 | .tableOverflow => 22

/-- The two octets of a subject (R181). -/
def Subject.octets : Subject → List Octet
  | .head h => [0, octet h.val]
  | .sect x => [1, octet x.val]
  | .movement n => [2, octet n]
  | .boom b => [3, octet b.code]
  | .lamp c => [4, octet c.code]
  | .lane l => [5, octet l.code]
  | .supply => [6, 0]
  | .audible => [7, 0]
  | .configuration => [8, 0]
  | .faultTable => [9, 0]

/-- The code of a fault record's state (R181). -/
def FaultState.code : FaultState → Nat
  | .active => 1 | .acknowledged => 2 | .cleared => 3

/-- The code of a reset kind where it may be absent (R181). -/
def resetCode : Option ResetKind → Nat
  | none => 0 | some .powerOn => 1 | some .supplyReset => 2 | some .restart => 3

/-- The code of an operating mode (R181). -/
def Mode.code : Mode → Nat
  | .starting => 0 | .unconfigured => 1 | .normal => 2 | .maintenance => 3

/-- The code of a supply state (R181). -/
def SupplyState.code : SupplyState → Nat
  | .good => 0 | .warn => 1 | .low => 2

/-- The code of a sequencer state, in the order of R102 (R181). -/
def SeqState.code : SeqState → Nat
  | .open => 0 | .amber => 1 | .redWarning => 2 | .entryLowering => 3 | .exitWait => 4 | .exitLowering => 5
  | .closed => 6 | .raising => 7 | .reclosing => 8 | .failedClosed => 9

/-- The code of a movement's state, in the order of R57 (R181). -/
def MoveState.code : MoveState → Nat
  | .arriving => 0 | .due => 1 | .standing => 2 | .crossing => 3 | .leaving => 4

/-- The code of an origin (R181). -/
def Origin.code : Origin → Nat
  | .outer => 0 | .fromDisturbed => 1 | .reversedHere => 2

/-- The code of a section state (R181). -/
def SectionState.code : SectionState → Nat
  | .clear => 0 | .occupied => 1 | .disturbed => 2 | .restoring => 3

/-- The code of a disturb cause: absent 0, then the order of R18 (R181). -/
def causeCode : Option DisturbCause → Nat
  | none => 0 | some .start => 1 | some .headFailed => 2 | some .underflow => 3 | some .overflow => 4
  | some .listFull => 5 | some .tableFull => 6 | some .config => 7

/-- The code of a restore kind (R181). -/
def RestoreKind.code : RestoreKind → Nat
  | .sweep => 0 | .direct => 1

/-- The code of a decoder state, in the order of R4 (R181). -/
def DecoderState.code : DecoderState → Nat
  | .settling => 0 | .quiet => 1 | .entering => 2 | .spanned => 3 | .leaving => 4

/-- The code of a lane's contact (R181). -/
def Contact.code : Contact → Nat
  | .notHeard => 0 | .present => 1 | .lost => 2

/-- The code of a boom state, in the order of R126 (R181). -/
def BoomState.code : BoomState → Nat
  | .up => 0 | .lowering => 1 | .down => 2 | .raising => 3 | .settling => 4 | .stopped => 5

/-- The code of an audible programme (R181). -/
def Programme.code : Programme → Nat
  | .silent => 0 | .warning => 1 | .secondTrain => 2

/-- The code of an outcome, in the order of the outcome table (R181). -/
def ReplyOutcome.code : ReplyOutcome → Nat
  | .done => 0 | .frameError => 1 | .refusedPort => 2 | .refusedMode => 3 | .refusedRange => 4 | .refusedState => 5
  | .refusedStale => 6 | .busy => 7

/-- The code of a reason of a FRAME-ERROR (R181). -/
def FrameReason.number : FrameReason → Nat
  | .length => 0 | .short => 1 | .long => 2 | .check => 3 | .code => 4 | .form => 5

/-- The code of an attention mode (R179). -/
def AttentionMode.code : AttentionMode → Nat
  | .off => 0 | .notice => 1 | .change => 2 | .changeAndStep => 3

/-! ## Frames -/

/-- A body with its length before it and its check value behind it (R181, R174). -/
def sealFrame (body : List Octet) : List Octet :=
  let l := half (BitVec.ofNat 16 body.length) ++ body
  l ++ half (crc l)

/-- A reply frame (R181): length, tag, code, outcome, data, check value. -/
def replyFrame (tag code : Octet) (o : ReplyOutcome) (data : List Octet) : List Octet :=
  sealFrame (tag :: code :: octet o.code :: data)

/-- A request frame after its transfer code (R181): length, tag, code, arguments, check value. -/
def requestFrame (tag code : Octet) (args : List Octet) : List Octet := sealFrame (tag :: code :: args)

/-- A number of two octets from a natural number. -/
def half' (n : Nat) : List Octet := half (BitVec.ofNat 16 n)

/-- A time that may be absent, 0 while absent (R181). -/
def timeOctets (t : Option Time) : List Octet := word (t.getD 0)

/-! ## Notices -/

/-- The octets of a notice (R181). -/
def Notice.octets : Notice → List Octet
  | .faultRaised id k x sev t => [0x10, octet id, octet k.code] ++ x.octets ++ [octet sev.code] ++ word t
  | .faultCleared id t => [0x20, octet id] ++ word t
  | .crossingStatus st =>
    [if st.cause.isSome then 0x40 else 0x30, octet st.state.code] ++ half st.closure ++
    [octet st.mode.code, octet st.supply.code, octet (flag st.proven), st.demand ++ st.occupied] ++ word st.seconds ++
    (match st.cause with
      | some (k, p) => [octet (resetCode (some k)), octet (resetCode p)]
      | none => [])
  | .movementPassed n t d axles v sec =>
    [octet (0x50 + t.val * 4 + d.code * 2 + (v.getD 0) / 256 % 2), octet (v.getD 0), octet n, octet axles] ++ word sec
  | .restored x t k => [0x60, octet x.val, octet (t.val + 1), octet k.code]

/-- Notices taken from the head of a queue while the sum of their sizes stays within a budget, and what remains (R166). -/
def takeNotices : Nat → List Notice → List Notice × List Notice
  | _, [] => ([], [])
  | budget, n :: rest =>
    if n.size ≤ budget then
      let (taken, left) := takeNotices (budget - n.size) rest
      (n :: taken, left)
    else ([], n :: rest)

/-- The notice budget of a POLL reply in octets (R166). -/
def noticeBudget : Nat := 60

/-! ## Read items -/

/-- The span entries of a movement slot, front first; an unused entry names no section (R181, log 21). -/
def spanOctets (l : List SpanEntry) : List Octet :=
  (List.range 4).flatMap fun i => match l[i]? with
    | some e => [octet e.sect.val, octet e.axles]
    | none => [0xFF, 0]

/-- A passage that may be absent: its head and time (R181). -/
def headTimeOctets (p : Option HeadTime) : List Octet :=
  headCode (p.map HeadTime.head) :: timeOctets (p.map HeadTime.time)

/-- The item of a movement slot, 46 octets (R61, R181). -/
def movementItem : Option Movement → List Octet
  | none => List.replicate 46 0
  | some m =>
    [1, octet m.number, octet ((m.track.val + 1) * 16 + m.dir.code), octet m.state.code, octet m.origin.code,
      octet m.flags] ++
    half' m.totalAxles ++ half' (m.entrySpeed.getD 0) ++ [octet m.crossingAxles, octet m.span.length] ++
    spanOctets m.span ++ timeOctets m.dueTime ++ timeOctets m.warnedAt ++ timeOctets m.dueSince ++ word m.lastAxle ++
    headTimeOctets m.rear ++ headTimeOctets m.advance

/-- The code of a section's role (R181). -/
def roleCode : Option Place → Nat
  | none => 0
  | some p => match p.role with
    | .island => 1 | .approach .a => 2 | .approach .b => 3

/-- The code of a section's restoration (R181). -/
def restoreCode (r : Section) : Nat :=
  match r.restore, r.sweepEnd with
  | none, _ => 0
  | some _, none => 1
  | some _, some .a => 2
  | some _, some .b => 3

namespace State

/-- The movement number at a place of a section's list, 0 where the list ends before it (R39, R181). -/
def listNumber (s : State) (l : List SlotId) (i : Nat) : Octet :=
  match l[i]? with
  | some k => match s.slot k with
    | some m => octet m.number
    | none => 0
  | none => 0

/-- The item of a section, 13 octets (R39, R181). -/
def sectionItem (s : State) (x : SectionId) : List Octet :=
  let r := s.sect x
  [octet (roleCode r.place), octet ((r.place.map fun p => p.track.val + 1).getD 0), headCode (r.place.map Place.aHead),
    headCode (r.place.map Place.bHead), octet r.count, octet r.state.code, octet (causeCode r.cause),
    octet (restoreCode r), octet r.list.length, s.listNumber r.list 0, s.listNumber r.list 1, s.listNumber r.list 2,
    s.listNumber r.list 3]

/-- The place of a fault position in the cleared order: absent 0, oldest 1 (R168, R181). -/
def clearedPlace (s : State) (p : Fin 31) : Nat :=
  match s.faults.clearedOrder.findIdx? (· = p) with
  | some i => i + 1
  | none => 0

end State

/-- The code of a head's condition (R181). -/
def conditionCode : Option HeadFailure → Nat
  | none => 0 | some .sensorStuck => 1 | some .sensorImbalance => 2

/-- The state and change time of a sensor: OCCUPIED 0, QUIET 1 (R4, R181). -/
def sensorOctets (v : Sensor) : List Octet := octet (flag !v.occupied) :: word v.changed

/-- The last passage of a head, 0 while absent (R181). -/
def lastPassageOctets : Option LastPassage → List Octet
  | none => List.replicate 7 0
  | some p => octet p.dir.code :: (half' (p.speed.getD 0) ++ word p.time)

/-- The item of a head, 32 octets (R17, R181). -/
def headItem (r : Head) : List Octet :=
  [octet (conditionCode r.failure), octet r.decoder.code, octet (sideCode r.entrySide * 16 + sideCode r.heldSide),
    octet r.partials] ++
  sensorOctets r.sensorA ++ sensorOctets r.sensorB ++ timeOctets (r.capture.map FineTime.ms) ++
  half' (r.speed.getD 0) ++ timeOctets r.quietSince ++ [octet r.flags] ++ lastPassageOctets r.lastPassage

/-- The item of a fault record, 19 octets; `place` its place in the cleared order (R168, R181). -/
def faultItem (r : Option FaultRecord) (place : Nat) : List Octet :=
  match r with
  | none => List.replicate 19 0
  | some r =>
    [octet r.state.code, octet r.id, octet r.kind.code, octet r.kind.cls.code, octet r.severity.code] ++
    r.subject.octets ++ word r.firstSeen ++ word r.lastSeen ++
    [octet r.occurrences, octet (flag r.carriedOver), octet (resetCode r.detail), octet place]

namespace State

/-- The item of a position of the fault table, 31 being the overflow position (R150, R168). -/
def faultPosition (s : State) (i : Nat) : List Octet :=
  if h : i < 31 then faultItem s.faults.table[i] (s.clearedPlace ⟨i, h⟩) else faultItem s.faults.overflow 0

/-! ## STATUS -/

/-- The part group (R169, R181). -/
def partGroup (s : State) : List Octet :=
  [octet s.mon.mode.code, octet s.mon.supply.code, octet (resetCode (some s.mon.resetKind)),
    octet (resetCode s.mon.previousKind)] ++
  word s.now ++ word s.seconds ++ half s.tracker.generation

/-- The sequencer group (R124, R181). -/
def sequencerGroup (s : State) : List Octet :=
  [octet s.seq.state.code] ++ half s.seq.closure ++ [octet s.sequencerFlags, octet s.causeFlags] ++
  timeOctets s.seq.redStart

/-- The closure number of a lane's consent, 0 while absent (R181). -/
def consentClosure (x : LaneStance) : List Octet := half ((x.consent.map Consent.closure).getD 0)

/-- The section of a lane's reset agreement, FF while absent (R181). -/
def agreementSection (x : LaneStance) : Octet :=
  match x.agreement with
  | some g => octet g.sect.val
  | none => 0xFF

/-- The stances group (R101, R181). -/
def stancesGroup (s : State) : List Octet :=
  [octet s.stances.laneA.contact.code, octet s.stances.laneB.contact.code, octet s.stanceFlags, octet s.presenceFlags] ++
  consentClosure s.stances.laneA ++ consentClosure s.stances.laneB ++
  [agreementSection s.stances.laneA, agreementSection s.stances.laneB]

/-- The octets of a boom in STATUS (R149, R181). -/
def boomOctets (b : Boom) : List Octet := [octet b.state.code, octet b.orderFlags, octet b.failures.flags]

/-- The outputs group (R149, R181). -/
def outputsGroup (s : State) : List Octet :=
  (BoomId.all.flatMap fun i => boomOctets (s.boom i)) ++ (Channel.all.map fun c => octet (s.lamp c).flags) ++
  [octet s.out.flags, octet s.out.audible.programme.code]

/-- The number of records of the fault table that satisfy a test, the overflow record among them (R169, log 34). -/
def countFaults (s : State) (p : FaultRecord → Bool) : Octet := octet (s.faults.records.filter p).length

/-- The record stands: it is ACTIVE or ACKNOWLEDGED. -/
def standing (r : FaultRecord) : Bool := r.state != .cleared

/-- A set of classes in two octets (R181). -/
def classOctets (m : ClassSet) : List Octet := half (m.setWidth 16)

/-- The faults group (R169, R181). -/
def faultsGroup (s : State) : List Octet :=
  [s.countFaults fun r => r.state == .active, s.countFaults fun r => r.state == .acknowledged,
    s.countFaults fun r => r.state == .cleared, s.countFaults fun r => standing r && r.severity == .major,
    s.countFaults fun r => standing r && r.severity == .critical,
    octet ((s.faults.overflow.map fun r => r.state.code).getD 0)] ++
  classOctets s.faults.masks ++ classOctets s.faults.sticky

/-- The notices group (R169, R181). -/
def noticesGroup (s : State) : List Octet :=
  [octet s.faults.queue.length, octet (flag (s.faults.queue.any Notice.isStatus)), octet s.faults.overflowCount]

/-- The data of a STATUS reply, 67 octets (R169, R181). -/
def statusOctets (s : State) : List Octet :=
  s.partGroup ++ s.sequencerGroup ++ s.stancesGroup ++ s.outputsGroup ++
  [trackBits s.trackDemand ++ trackBits s.trackOccupied] ++ s.faultsGroup ++ s.noticesGroup

end State

end Machine

end Sys2Proof
end

