-- ==== Sys2Proof/Machine/StartUp.lean ====
section
/-!
DEFINITION. The supply and start-up monitor (R189 to R194): the supply state, the three resets block by block, the
stabilisation wait, the image read and the leaving of STARTING; and the meanings of the seven supply and start-up commands.
-/
namespace Sys2Proof.Machine

/-- The sense below which the part is reset, in mV (R190). -/
def resetBelow : Nat := 18000
/-- The sense above which a hold ends, in mV (R190). -/
def holdEndAbove : Nat := 18500
/-- The read expiry after the start of a read, in ms (R182). -/
def readMs : Nat := 100

/-- The supply state by the table of R189; a fall through both thresholds reaches LOW at once (log 14). -/
def SupplyState.follow (st : SupplyState) (sense : Nat) : SupplyState :=
  match st with
  | .good => if sense < 20500 then .low else if sense < 22000 then .warn else .good
  | .warn => if sense < 20500 then .low else if sense > 22200 then .good else .warn
  | .low => if sense > 22200 then .good else if sense > 20700 then .warn else .low

/-! ## Block values at the resets -/

/-- A write in flight is abandoned by a reset (R182, R188): the image is left not valid. -/
def Store.abandon (v : Store) : Store :=
  match v.state with
  | .writing _ => { v with imageAgrees := false, imageValid := false }
  | .idle | .reading _ => v

/-- The store at a reset (R182): IDLE, the active copy absent; the staging copy waits for the image read (log 28). -/
def Store.atReset (v : Store) : Store := { v.abandon with state := .idle, active := none }

/-- The store at power-on: the image alone has survived (R182, R191). -/
def Store.atPowerOn (v : Store) : Store := { v.atReset with staging := ConfigImage.blank }

/-- The monitor at a supply reset (R189, R190, R191): held, in STARTING. -/
def Monitor.atSupplyReset (v : Monitor) (sense : Nat) : Monitor where
  mode := .starting
  supply := SupplyState.fresh sense
  sense := sense
  held := true
  resetKind := .supplyReset
  previousKind := some v.resetKind
  stabilisation := none

/-- The monitor at a restart (R189, R191, R193): in STARTING, with no wait. -/
def Monitor.atRestart (v : Monitor) : Monitor where
  mode := .starting
  supply := SupplyState.fresh v.sense
  sense := v.sense
  held := false
  resetKind := .restart
  previousKind := some v.resetKind
  stabilisation := none

/-- The ports at a restart (R172): the attention modes are kept. -/
def Ports.atRestart (v : Ports) : Ports where
  laneA := PortRecord.initial v.laneA.mode
  laneB := PortRecord.initial v.laneB.mode
  signaller := PortRecord.initial v.signaller.mode
  service := PortRecord.initial v.service.mode
  window := none

namespace State

/-- The image read begins as the outputs take effect, and the red start is set (R148, R192, R69). -/
def takeEffect (s : State) : State :=
  let s := s.onOut fun o => o.takeEffect s.cfg s.seq s.uptime
  let s := s.onSeq fun q => { q with redStart := some s.now }
  s.onStore fun v => { v with state := .reading (after s.now readMs) }

/-- Power-on (R191): every block at its power-on values, the image and its check value as they were. -/
def atPowerOn (s : State) (sense : Nat) : State :=
  { State.reset with store := s.store.atPowerOn, mon := Monitor.initial sense, pending := s.pending }

/-- Supply reset (R190): every block at its supply-reset values, the part held, the crossing clock stopped. -/
def atSupplyReset (s : State) (sense : Nat) : State :=
  { State.reset with
    uptime := s.uptime
    store := s.store.atReset
    mon := s.mon.atSupplyReset sense
    pending := s.pending }

/-- The end of a hold (R190, R192): the clock begins at 0, with the stabilisation wait. -/
def endHold (s : State) (sense : Nat) : State :=
  { s with uptime := 0 }.onMon fun v =>
    { v with held := false, sense := sense, supply := SupplyState.fresh sense, stabilisation := some stabilisationMs }

/-- Restart (R193): every block at its restart values, the outputs taking effect at once (R192). -/
def restart (s : State) : State :=
  State.takeEffect
    { State.reset with
      heads := Vector.ofFn fun h : HeadId => s.heads[h].restarted
      stances := { Stances.initial with permit := s.stances.permit }
      seq := { Sequencer.initial with closure := s.seq.closure }
      faults := s.faults.restarted
      ports := s.ports.atRestart
      store := s.store.atReset
      mon := s.mon.atRestart
      pending := s.pending }

/-! ## The supply sense -/

/-- The supply state follows the sense, with its faults (R189); two raises or two clears stand in the order of log 7. -/
def followSupply (s : State) (sense : Nat) : State :=
  let old := s.mon.supply
  let new := old.follow sense
  let s := s.onMon fun v => { v with sense := sense, supply := new }
  let s := if old = .good ∧ new ≠ .good then s.raise .supplyWarn .supply else s
  let s := if old ≠ .low ∧ new = .low then s.raise .supplyLow .supply else s
  let s := if old = .low ∧ new ≠ .low then s.clear .supplyLow .supply else s
  if old ≠ .good ∧ new = .good then s.clear .supplyWarn .supply else s

/-- The part takes a value of the supply sense (R189, R190, log 14). -/
def takeSense (s : State) (dt sense : Nat) : State :=
  if s.mon.held then
    if sense > holdEndAbove then s.endHold sense else s.onMon fun v => { v with sense := sense }
  else if sense < resetBelow then (s.advance dt).atSupplyReset sense
  else finish (s.advance dt) ((s.advance dt).followSupply sense)

/-! ## The leaving of STARTING (R192) -/

/-- The image is valid: its check value holds and it passes the checks (R182, R192). -/
def imageGood (s : State) : Bool := s.store.imageAgrees && s.store.image.failedCheck.isNone

/-- The copies take their values as the read ends (R182). -/
def Store.takeImage (v : Store) (valid : Bool) : Store :=
  { v with
    state := .idle
    imageValid := valid
    active := if valid then some v.image else none
    staging := if valid then v.image else ConfigImage.blank }

/-- The class masks as STARTING is left (R160). -/
def startMasks (s : State) : ClassSet :=
  match s.mon.resetKind, s.store.active with
  | .restart, _ => s.faults.masks
  | _, some c => c.defaultMasks
  | _, none => 0

/-- A section record as STARTING is left (R37, R18). -/
def startSection (c : Option ConfigImage) (x : SectionId) (r : Section) : Section :=
  match c with
  | none => Section.unused
  | some c => match c.sections[x].place with
    | none => Section.unused
    | some p => { r with place := some p }

/-- The sections that are used raise SECTION-DISTURBED (R37). -/
def raiseSections (s : State) : State :=
  (List.finRange 10).foldl (fun s x =>
    if (s.sect x).place.isSome then s.raise .sectionDisturbed (.sect x) else s) s

/-- A failure kind of a boom stands (R126). -/
def boomFault (b : Boom) : FaultKind → Bool
  | .boomTravelTimeout => b.failures.timeout
  | .boomContactConflict => b.failures.conflict
  | .boomDisplaced => b.failures.displaced
  | _ => false

/-- The kinds of boom fault (R151). -/
def boomKinds : List FaultKind := [.boomTravelTimeout, .boomContactConflict, .boomDisplaced]

/-- The output supervisor raises the faults that stand (R148). -/
def raiseOutputs (s : State) : State :=
  let s := BoomId.all.foldl (fun s i => boomKinds.foldl (fun s k =>
    if boomFault (s.boom i) k then s.raise k (.boom i) else s) s) s
  let s := Channel.all.foldl (fun s c =>
    let s := if (s.lamp c).failed then
        s.raiseAt (lampOut c) (.lamp c) (if s.otherRedFailed c then .major else .minor) else s
    if (s.lamp c).stray then s.raise .lampStrayCurrent (.lamp c) else s) s
  if s.out.audible.openCircuit then s.raise .audibleOpenCircuit .audible else s

/-- The monitor raises the supply faults that stand (R189). -/
def raiseSupply (s : State) : State :=
  let s := if s.mon.supply ≠ .good then s.raise .supplyWarn .supply else s
  if s.mon.supply = .low then s.raise .supplyLow .supply else s

/-- The output supervisor clears the faults that do not stand (R148). -/
def clearOutputs (s : State) : State :=
  let s := BoomId.all.foldl (fun s i => boomKinds.foldl (fun s k =>
    if boomFault (s.boom i) k then s else s.clear k (.boom i)) s) s
  let s := Channel.all.foldl (fun s c =>
    let s := if (s.lamp c).failed then s else s.clear (lampOut c) (.lamp c)
    if (s.lamp c).stray then s else s.clear .lampStrayCurrent (.lamp c)) s
  if s.out.audible.openCircuit then s else s.clear .audibleOpenCircuit .audible

/-- The monitor clears the supply faults that do not stand (R189). -/
def clearSupply (s : State) : State :=
  let s := if s.mon.supply = .low then s else s.clear .supplyLow .supply
  if s.mon.supply = .good then s.clear .supplyWarn .supply else s

/-- The approach timer clears the faults of movements lost in a restart (R80). -/
def clearLostMovements (s : State) : State :=
  (List.finRange 31).foldl (fun s p =>
    match s.faults.table[p] with
    | some r => if r.kind = .shortWarning ∨ r.kind = .longApproach then s.clear r.kind r.subject else s
    | none => s) s

/-- The faults of sections made unused are cleared (R37, R49). -/
def clearSections (s : State) : State :=
  (List.finRange 10).foldl (fun s x =>
    if (s.sect x).place.isSome then s else (s.clear .sectionDisturbed (.sect x)).clearFullFaults x) s

/-- The stance combiner clears its faults (R100). -/
def clearLanes (s : State) : State :=
  ((s.clear .laneLost (.lane .a)).clear .laneLost (.lane .b)).clearDisagree

/-- Contact supervision begins for the lanes that take part (R86, R100). -/
def superviseLanes (s : State) : State :=
  s.onStances fun v =>
    { v with
      laneA := { v.laneA with supervisedFrom := some s.now }
      laneB := if s.cfg.dual then { v.laneB with supervisedFrom := some s.now } else v.laneB }

/-- PART-RESTARTED is recorded (R159). -/
def recordRestart (s : State) : State := s.onFaults fun u => u.partRestarted s.seconds s.mon.resetKind

/-- The store and the mode as the read ends (R182, R192): NORMAL, or UNCONFIGURED with the CONFIG cause (R115). -/
def endRead (s : State) : State :=
  let valid := s.imageGood
  let s := (s.onStore fun v => Store.takeImage v valid).onMon fun v =>
    { v with mode := if valid then .normal else .unconfigured }
  if valid then s else s.onSeq fun q => { q with causes := { q.causes with config := true } }

/-- The blocks begin (R192): the first status, the masks, observation, the sections, contact supervision. -/
def beginBlocks (s : State) : State :=
  let s := s.onFaults fun u =>
    u.queueStatus (s.statusNotice (some (s.mon.resetKind, s.mon.previousKind)))
  let s := s.onFaults fun u => { u with masks := s.startMasks }
  let s := s.onHeads fun v => Vector.ofFn fun h : HeadId => v[h].observe s.uptime
  let s := s.onSections fun v => Vector.ofFn fun x : SectionId => startSection s.store.active x v[x]
  s.superviseLanes

/-- The raises and clears of the leaving of STARTING, in the order of log 24 (R170). -/
def startFaults (s : State) : State :=
  let s := s.raiseSections.raiseOutputs.raiseSupply.recordRestart
  let s := if s.mon.mode = .unconfigured then s.raise .configInvalid .configuration
    else s.clear .configInvalid .configuration
  (s.clearOutputs.clearSupply.clearLostMovements.clearSections.clearLanes).clear .storeWriteFailed .configuration

/-- Leaving STARTING (R192). -/
def leaveStarting (s : State) : State := s.endRead.beginBlocks.startFaults

/-- The effect of the end of the stabilisation wait (R192). -/
def stabilisationEffect (s : State) : Option State :=
  match s.mon.stabilisation with
  | some t =>
    if reached s.now t then some (s.onMon fun v => { v with stabilisation := none }).takeEffect else none
  | none => none

/-- The effect of the store's read-completion event (R182, R192). -/
def readCompletionEffect (s : State) : Option State :=
  match s.store.state with
  | .reading _ => some s.leaveStarting
  | .idle | .writing _ => none

/-- The effect of the read expiry (R192): the whole stored image is judged, as at a completion (log 44). -/
def readExpiryEffect (s : State) : Option State :=
  match s.store.state with
  | .reading t => if reached s.now t then some s.leaveStarting else none
  | .idle | .writing _ => none

end State

/-- POWER_ON (R191). -/
def execPowerOn (sense : Nat) (s : State) : Host.Outcome State Fault Refusal := .next (s.atPowerOn sense)

/-- SUPPLY_RESET (R190). -/
def execSupplyReset (dt sense : Nat) (s : State) : Host.Outcome State Fault Refusal := .next (s.takeSense dt sense)

/-- SUPPLY_RESET_HOLD_END (R190): the clock stands in a hold, so no time has passed. -/
def execSupplyResetHoldEnd (sense : Nat) (s : State) : Host.Outcome State Fault Refusal := .next (s.takeSense 0 sense)

/-- SUPPLY_STATE_CHANGE (R189). -/
def execSupplyStateChange (dt sense : Nat) (s : State) : Host.Outcome State Fault Refusal :=
  .next (s.takeSense dt sense)

/-- STABILISATION_WAIT_END (R192). -/
def execStabilisationWaitEnd (dt : Nat) (s : State) : Host.Outcome State Fault Refusal :=
  .next (s.event dt State.stabilisationEffect)

/-- READ_COMPLETION (R192). -/
def execReadCompletion (dt : Nat) (s : State) : Host.Outcome State Fault Refusal :=
  .next (s.event dt State.readCompletionEffect)

/-- READ_EXPIRY (R192). -/
def execReadExpiry (dt : Nat) (s : State) : Host.Outcome State Fault Refusal := .next (s.event dt State.readExpiryEffect)

end Sys2Proof.Machine
end

