-- ==== Sys2Proof/Machine/Requests.lean ====
section
/-!
DEFINITION. How a port takes a transfer (R172 to R176): the kinds of request with their codes, argument counts and
permissions; the contact of a lane; the load window's closing; the judging of a request in the order of R175; the reply; and
the meanings of TRANSFER_IGNORED, COLLECT and ATTENTION_PULSE_END.
-/
namespace Sys2Proof.Machine

/-- The requests of the permission table. -/
inductive RequestKind where
  | status | poll | test | readMovements | readSections | readHeads | readFaults | setAttention
  | hold | release | consent | agreeReset | depart | reopenStanding | resetSection | ackFault
  | permitMaintenance | withdrawPermit | enterMaintenance | leaveMaintenance | boomTest | lampTest | setMasks | restart
  | loadWindow | loadData | loadContinue | readWindow | commit
deriving DecidableEq, Repr

namespace RequestKind

/-- The code of a request (09_request_ports_and_frame_layouts.md, Permissions), read as decimal (log 18). -/
def code : RequestKind → Nat
  | .status => 1 | .poll => 2 | .test => 3 | .readMovements => 4 | .readSections => 5 | .readHeads => 6
  | .readFaults => 7 | .setAttention => 8 | .hold => 10 | .release => 11 | .consent => 12 | .agreeReset => 13
  | .depart => 14 | .reopenStanding => 15 | .resetSection => 16 | .ackFault => 17 | .permitMaintenance => 18
  | .withdrawPermit => 19 | .enterMaintenance => 20 | .leaveMaintenance => 21 | .boomTest => 22 | .lampTest => 23
  | .setMasks => 24 | .restart => 25 | .loadWindow => 30 | .loadData => 31 | .loadContinue => 32 | .readWindow => 33
  | .commit => 34

/-- The code of a request as it stands in a frame. -/
def codeOctet (k : RequestKind) : Octet := octet k.code

/-- The requests, in the order of the table. -/
def all : List RequestKind :=
  [.status, .poll, .test, .readMovements, .readSections, .readHeads, .readFaults, .setAttention, .hold, .release,
    .consent, .agreeReset, .depart, .reopenStanding, .resetSection, .ackFault, .permitMaintenance, .withdrawPermit,
    .enterMaintenance, .leaveMaintenance, .boomTest, .lampTest, .setMasks, .restart, .loadWindow, .loadData,
    .loadContinue, .readWindow, .commit]

/-- The request a code names (R174, CODE). -/
def ofCode (o : Octet) : Option RequestKind := all.find? fun k => k.codeOctet == o

/-- LOAD-DATA or LOAD-CONTINUE. -/
def isLoad : RequestKind → Bool
  | .loadData | .loadContinue => true
  | _ => false

/-- The number of argument octets of a request of a fixed form; LOAD-DATA and LOAD-CONTINUE have none of it. -/
def argCount : RequestKind → Nat
  | .test | .setAttention | .agreeReset | .depart | .reopenStanding | .ackFault | .lampTest => 1
  | .readMovements | .readFaults | .consent | .resetSection | .boomTest | .setMasks => 2
  | .loadWindow => 3
  | .readWindow => 4
  | .status | .poll | .readSections | .readHeads | .hold | .release | .permitMaintenance | .withdrawPermit
  | .enterMaintenance | .leaveMaintenance | .restart | .loadData | .loadContinue | .commit => 0

/-- The argument octets are the number the request calls for (R174, FORM). -/
def formHolds (k : RequestKind) (args : List Octet) : Bool :=
  if k.isLoad then
    match args with
    | table :: count :: entries =>
      match TableId.ofCode table with
      | some t => entries.length == count.toNat * t.size
      | none => false
    | _ => false
  else args.length == k.argCount

/-- The operating modes in which a port may make a request; none for a dash of the permission table. -/
def modes (k : RequestKind) (p : Port) : List Mode :=
  match k, p with
  | .status, _ => [.starting, .unconfigured, .normal, .maintenance]
  | .poll, .signaller => [.unconfigured, .normal, .maintenance]
  | .poll, _ => []
  | .test, .service | .readMovements, .service | .readSections, .service | .readHeads, .service
  | .readFaults, .service => [.unconfigured, .normal, .maintenance]
  | .test, _ | .readMovements, _ | .readSections, _ | .readHeads, _ | .readFaults, _ => [.normal, .maintenance]
  | .setAttention, _ | .hold, _ | .release, _ => [.normal, .maintenance]
  | .consent, .laneA | .consent, .laneB => [.normal]
  | .consent, _ => []
  | .agreeReset, .laneA | .agreeReset, .laneB => [.normal, .maintenance]
  | .agreeReset, _ => []
  | .depart, .service => []
  | .depart, _ => [.normal, .maintenance]
  | .reopenStanding, .laneA | .reopenStanding, .laneB => [.maintenance]
  | .reopenStanding, .signaller => [.normal, .maintenance]
  | .reopenStanding, .service => []
  | .resetSection, .signaller => [.normal, .maintenance]
  | .resetSection, .service => [.maintenance]
  | .resetSection, _ => []
  | .ackFault, .signaller | .permitMaintenance, .signaller | .withdrawPermit, .signaller => [.normal, .maintenance]
  | .ackFault, _ | .permitMaintenance, _ | .withdrawPermit, _ => []
  | .enterMaintenance, .service => [.normal]
  | .enterMaintenance, _ => []
  | .leaveMaintenance, .service | .boomTest, .service | .lampTest, .service | .setMasks, .service
  | .restart, .service => [.maintenance]
  | .leaveMaintenance, _ | .boomTest, _ | .lampTest, _ | .setMasks, _ | .restart, _ => []
  | .loadWindow, .service | .loadData, .service | .loadContinue, .service | .commit, .service =>
    [.unconfigured, .maintenance]
  | .loadWindow, _ | .loadData, _ | .loadContinue, _ | .commit, _ => []
  | .readWindow, .service => [.unconfigured, .normal, .maintenance]
  | .readWindow, _ => []

end RequestKind

/-! ## Port records -/

namespace Ports

/-- The record of a port. -/
def get (v : Ports) : Port → PortRecord
  | .laneA => v.laneA
  | .laneB => v.laneB
  | .signaller => v.signaller
  | .service => v.service

/-- Write the record of a port. -/
def set (v : Ports) (p : Port) (r : PortRecord) : Ports :=
  match p with
  | .laneA => { v with laneA := r }
  | .laneB => { v with laneB := r }
  | .signaller => { v with signaller := r }
  | .service => { v with service := r }

end Ports

/-- What a request leaves besides its own effect: nothing to hand round, an event to finish, a commit that changes the
topology, or a restart. -/
inductive Ending where
  | quiet | acts | topology | restarts
deriving DecidableEq, Repr

/-- The answer to a request: the state its effect has left, the outcome and the reply's data (R175). -/
structure Answer where
  s : State
  outcome : ReplyOutcome
  data : List Octet
  ending : Ending

/-- Refuse a request, with no data (R175). -/
def Answer.refuse (s : State) (o : ReplyOutcome) : Answer := ⟨s, o, [], .quiet⟩

/-- Take a request that only reads or that nothing need be handed round for. -/
def Answer.quiet (s : State) (data : List Octet) : Answer := ⟨s, .done, data, .quiet⟩

/-- Take a request that acts on the crossing. -/
def Answer.acts (s : State) (data : List Octet) : Answer := ⟨s, .done, data, .acts⟩

namespace State

/-- The record of a port. -/
def port (s : State) (p : Port) : PortRecord := s.ports.get p

/-- Write the record of a port. -/
def setPort (s : State) (p : Port) (r : PortRecord) : State := s.onPorts fun v => v.set p r

/-- The octets a port shifts out after the first octet of a transfer (R173, log 20). -/
def shiftOut (s : State) (p : Port) (l : List Octet) : State := s.setPort p { s.port p with shifted := l }

/-- Place a reply in a port's buffer (R173). -/
def putReply (s : State) (p : Port) (l : List Octet) : State := s.setPort p { s.port p with reply := some l }

/-- Close the load window (R172). -/
def closeWindow (s : State) : State := s.onPorts fun v => { v with window := none }

/-- Close the load window on the service port under a condition (R172). -/
def closeWindowIf (s : State) (p : Port) (c : Bool) : State := if p = .service ∧ c = true then s.closeWindow else s

/-- The Lane B port is refused everything: the arrangement is SINGLE (R99, R176). -/
def shutOut (s : State) (p : Port) : Bool := p == .laneB && !s.cfg.dual

/-- The lane whose contact a well-formed request on a port is, none where it counts no contact (R85, R99). -/
def contactLane (s : State) (p : Port) : Option Lane :=
  if s.mon.mode = .starting ∨ s.shutOut p = true then none else p.lane

/-- The contact a well-formed request makes (R85). -/
def contactBy (s : State) (p : Port) : State :=
  match s.contactLane p with
  | some l => s.takeContact l
  | none => s

/-- The contact of a lane changes by a request on a port (R85). -/
def contactChanges (s : State) (p : Port) : Bool :=
  match s.contactLane p with
  | some l => (s.lane l).contact != .present
  | none => false

/-- The argument is a RESET-SECTION's DIRECT kind from the service port (R176). -/
def directFromService (k : RequestKind) (p : Port) (args : List Octet) : Bool :=
  k == .resetSection && p == .service && RestoreKind.ofCode (octetAt args 1) == some .direct

/-- The port and mode checks (R175, R176): the refusal, or none. -/
def permission (s : State) (k : RequestKind) (p : Port) (args : List Octet) : Option ReplyOutcome :=
  if (k.modes p).isEmpty || s.shutOut p || directFromService k p args then some .refusedPort
  else if (k.modes p).contains s.mon.mode then none
  else some .refusedMode

/-- The data of a CONSENT reply (R90, R181). -/
def consentData (s : State) : List Octet := half s.seq.closure ++ [octet (flag s.consentComplete)]

/-- Judge a request that has passed the frame check (R175): the port, the mode, then the request's own checks and effect. -/
def judge (s : State) (k : RequestKind) (p : Port) (args : List Octet) (act : State → Answer) : Answer :=
  match s.permission k p args with
  | some o => ⟨s, o, if k = .consent then s.consentData else [], .quiet⟩
  | none => act s

/-- Answer a frame that fails the frame check (R174): no contact, no effect but the reply and the load window. -/
def frameError (s : State) (p : Port) (tag code : Octet) (r : FrameReason) : State :=
  (s.closeWindowIf p true).putReply p (replyFrame tag code .frameError [octet r.number])

/-- Take a request that has passed the frame check, in the event that began in `s` (R173, R175). -/
def takeRequest (s : State) (k : RequestKind) (p : Port) (tag : Octet) (args : List Octet) (act : State → Answer) :
    State :=
  let a := (((s.contactBy p).closeWindowIf p (!k.isLoad))).judge k p args act
  let t := (a.s.closeWindowIf p (k.isLoad && a.outcome == .refusedMode)).putReply p
    (replyFrame tag k.codeOctet a.outcome a.data)
  match a.ending with
  | .quiet => if s.contactChanges p then finish s t else t
  | .acts => finish s t
  | .topology => finish s t true
  | .restarts => t.restart

/-- A REQUEST transfer whose frame carries this request (R173, R174): the part shifts out zeros; in supply reset the request
is not taken (R172). A frame too long or of the wrong form fails the frame check (log 19). -/
def request (s : State) (dt : Nat) (k : RequestKind) (p : Port) (tag : Octet) (args : List Octet) (act : State → Answer) :
    State :=
  let zeros := List.replicate (args.length + 6) 0
  if s.mon.held then s.shiftOut p zeros
  else
    let s := (s.advance dt).shiftOut p zeros
    if args.length + 2 > 256 then s.frameError p tag k.codeOctet .length
    else if !k.formHolds args then s.frameError p tag k.codeOctet .form
    else s.takeRequest k p tag args act

/-- A COLLECT transfer (R173): the held reply, then zeros; in supply reset zeros alone (R172). -/
def collect (s : State) (dt : Nat) (p : Port) (clocked : Nat) : State :=
  if s.mon.held then s.shiftOut p (List.replicate clocked 0)
  else
    let s := s.advance dt
    s.shiftOut p ((((s.port p).reply.getD []) ++ List.replicate clocked 0).take clocked)

/-- A transfer that is ignored (R173): the port record does not change. -/
def ignore (s : State) (dt : Nat) : State := if s.mon.held then s else s.advance dt

/-- The effect of the end of an attention pulse (R180): the line falls. -/
def pulseEndEffect (p : Port) (s : State) : Option State :=
  match (s.port p).pulseEnd with
  | some t =>
    if t ≤ s.uptime then some (s.setPort p { s.port p with pulseEnd := none, line := false }) else none
  | none => none

end State

/-- TRANSFER_IGNORED (R173). -/
def execTransferIgnored (dt : Nat) (p : Port) (first : Option Octet) (s : State) : Host.Outcome State Fault Refusal :=
  let _ := (p, first)
  .next (s.ignore dt)

/-- COLLECT (R173). -/
def execCollect (dt : Nat) (p : Port) (clocked : Nat) (s : State) : Host.Outcome State Fault Refusal :=
  .next (s.collect dt p clocked)

/-- ATTENTION_PULSE_END (R180). -/
def execAttentionPulseEnd (dt : Nat) (p : Port) (s : State) : Host.Outcome State Fault Refusal :=
  .next (s.event dt (State.pulseEndEffect p))

end Sys2Proof.Machine
end

