-- ==== Sys2Proof/Machine/Reads.lean ====
section
/-!
DEFINITION. The requests that read (R17, R39, R61, R166 to R169, R177, R178), and those that set a port or the fault unit:
SET-ATTENTION (R179), ACK-FAULT (R158), SET-MASKS (R160).
-/
namespace Sys2Proof.Machine

/-- A window of a collection is out of range (R61, R168): first or last above `top`, or first above last. -/
def windowFails (first last : Octet) (top : Nat) : Bool :=
  first.toNat > top || last.toNat > top || first.toNat > last.toNat

/-- The items of a window, first to last (R177). -/
def windowItems (first last : Octet) (item : Nat → List Octet) : List Octet :=
  (List.range (last.toNat + 1 - first.toNat)).flatMap fun i => item (first.toNat + i)

namespace State

/-- The generation number as a reply carries it. -/
def generationOctets (s : State) : List Octet := half s.tracker.generation

/-- STATUS (R169). -/
def status (s : State) : Answer := Answer.quiet s s.statusOctets

/-- The header of a POLL reply (R166, R181). -/
def pollHeader (s : State) (remaining : Nat) : List Octet :=
  [octet s.faults.overflowCount] ++ classOctets s.faults.sticky ++ [octet remaining]

/-- The fault unit after a POLL (R166). -/
def polled (u : FaultUnit) (left : List Notice) : FaultUnit :=
  { u with queue := left, overflowCount := 0, sticky := 0 }

/-- POLL (R166); the attention lines in NOTICE follow the queue (R180). -/
def poll (s : State) : Answer :=
  let (taken, left) := takeNotices noticeBudget s.faults.queue
  let data := s.pollHeader left.length ++ taken.flatMap Notice.octets
  Answer.quiet ((s.onFaults fun u => polled u left).driveLines false false) data

/-- TEST (R178): one bit per track, then the generation number. -/
def test (p : Octet) (s : State) : Answer :=
  match Predicate.ofCode p with
  | none => Answer.refuse s .refusedRange
  | some q => Answer.quiet s ([(trackBits (s.answer q)).setWidth 8] ++ s.generationOctets)

/-- The item of a movement slot by its number (R61). -/
def slotItem (s : State) (i : Nat) : List Octet := if h : i < 16 then movementItem (s.slot ⟨i, h⟩) else []

/-- READ-MOVEMENTS (R61). -/
def readMovements (first last : Octet) (s : State) : Answer :=
  if windowFails first last 15 then Answer.refuse s .refusedRange
  else Answer.quiet s ([first, last] ++ s.generationOctets ++ windowItems first last s.slotItem)

/-- READ-SECTIONS (R39). -/
def readSections (s : State) : Answer :=
  Answer.quiet s (s.generationOctets ++ (List.finRange 10).flatMap s.sectionItem)

/-- READ-HEADS (R17). -/
def readHeads (s : State) : Answer :=
  Answer.quiet s (s.generationOctets ++ (List.finRange 12).flatMap fun h => headItem (s.head h))

/-- READ-FAULTS (R168). -/
def readFaults (first last : Octet) (s : State) : Answer :=
  if windowFails first last 31 then Answer.refuse s .refusedRange
  else Answer.quiet s ([first, last] ++ s.generationOctets ++ windowItems first last s.faultPosition)

/-- A port record after a SET-ATTENTION that changes the mode (R179): NOTICE takes the level of the queue, the other modes
deassert the line. -/
def attend (s : State) (r : PortRecord) (m : AttentionMode) : PortRecord :=
  if r.mode = m then r
  else { r with mode := m, pulseEnd := none, line := m == .notice && !s.faults.queue.isEmpty }

/-- SET-ATTENTION (R179). -/
def setAttention (p : Port) (mode : Octet) (s : State) : Answer :=
  match AttentionMode.ofCode mode with
  | none => Answer.refuse s .refusedRange
  | some m => Answer.quiet (s.setPort p (s.attend (s.port p) m)) [octet m.code]

/-- The code of a record's state after an acknowledgement (R158, R181): REMOVED 0, ACKNOWLEDGED 2. -/
def ackCode : Option FaultState → Octet
  | none => 0
  | some st => octet st.code

/-- ACK-FAULT (R158). -/
def ackFault (id : Octet) (s : State) : Answer :=
  if id = 0 then Answer.refuse s .refusedRange
  else
    match s.faults.acknowledge id.toNat with
    | none => Answer.refuse s .refusedState
    | some (u, st) => Answer.quiet (s.onFaults fun _ => u) [id, ackCode st]

/-- SET-MASKS (R160, R181): a set bit above bit 8 is out of range. -/
def setMasks (masks : Half) (s : State) : Answer :=
  if masks.toNat > 511 then Answer.refuse s .refusedRange
  else Answer.quiet (s.onFaults fun u => { u with masks := masks.setWidth 9 }) []

end State

/-- STATUS (R169). -/
def execStatus (dt : Nat) (p : Port) (tag : Octet) (s : State) : Host.Outcome State Fault Refusal :=
  .next (s.request dt .status p tag [] State.status)

/-- POLL (R166). -/
def execPoll (dt : Nat) (p : Port) (tag : Octet) (s : State) : Host.Outcome State Fault Refusal :=
  .next (s.request dt .poll p tag [] State.poll)

/-- TEST (R178). -/
def execTest (dt : Nat) (p : Port) (tag : Octet) (predicate : Octet) (s : State) : Host.Outcome State Fault Refusal :=
  .next (s.request dt .test p tag [predicate] (State.test predicate))

/-- READ-MOVEMENTS (R61). -/
def execReadMovements (dt : Nat) (p : Port) (tag : Octet) (first last : Octet) (s : State) :
    Host.Outcome State Fault Refusal :=
  .next (s.request dt .readMovements p tag [first, last] (State.readMovements first last))

/-- READ-SECTIONS (R39). -/
def execReadSections (dt : Nat) (p : Port) (tag : Octet) (s : State) : Host.Outcome State Fault Refusal :=
  .next (s.request dt .readSections p tag [] State.readSections)

/-- READ-HEADS (R17). -/
def execReadHeads (dt : Nat) (p : Port) (tag : Octet) (s : State) : Host.Outcome State Fault Refusal :=
  .next (s.request dt .readHeads p tag [] State.readHeads)

/-- READ-FAULTS (R168). -/
def execReadFaults (dt : Nat) (p : Port) (tag : Octet) (first last : Octet) (s : State) :
    Host.Outcome State Fault Refusal :=
  .next (s.request dt .readFaults p tag [first, last] (State.readFaults first last))

/-- SET-ATTENTION (R179). -/
def execSetAttention (dt : Nat) (p : Port) (tag : Octet) (mode : Octet) (s : State) : Host.Outcome State Fault Refusal :=
  .next (s.request dt .setAttention p tag [mode] (State.setAttention p mode))

/-- ACK-FAULT (R158). -/
def execAckFault (dt : Nat) (p : Port) (tag : Octet) (id : Octet) (s : State) : Host.Outcome State Fault Refusal :=
  .next (s.request dt .ackFault p tag [id] (State.ackFault id))

/-- SET-MASKS (R160). -/
def execSetMasks (dt : Nat) (p : Port) (tag : Octet) (masks : Half) (s : State) : Host.Outcome State Fault Refusal :=
  .next (s.request dt .setMasks p tag (half masks) (State.setMasks masks))

end Sys2Proof.Machine
end

