-- ==== Sys2Proof/Machine/StanceRequests.lean ====
section
/-!
DEFINITION. The requests on stances, movements and sections: HOLD and RELEASE (R88), CONSENT (R90), AGREE-RESET (R95),
DEPART (R75), REOPEN-STANDING (R73), RESET-SECTION (R30 to R35).
-/
namespace Sys2Proof.Machine

namespace State

/-- The data of a HOLD or RELEASE reply (R88, R181): `closure` the number current when the request was taken. -/
def holdData (s : State) (p : Port) (closure : Half) : List Octet :=
  half closure ++ [octet (flag (s.stances.holdOf p)), octet (flag s.stances.combinedHold)]

/-- HOLD (R88): a lane's own consent is dropped (R92). -/
def hold (p : Port) (s : State) : Answer :=
  let t := s.onStances fun v => v.setHold p true
  let t := match p.lane with
    | some l => t.onStances fun v => v.dropConsent l
    | none => t
  Answer.acts t (t.holdData p s.seq.closure)

/-- RELEASE (R88). -/
def release (p : Port) (s : State) : Answer :=
  let t := s.onStances fun v => v.setHold p false
  Answer.acts t (t.holdData p s.seq.closure)

/-- Record a lane's consent (R90). -/
def giveConsent (s : State) (l : Lane) (closure : Half) : State :=
  s.setLane l { s.lane l with consent := some ⟨closure, s.now⟩ }

/-- CONSENT from a lane (R90): the state checks in their order. -/
def consentOf (l : Lane) (closure : Half) (s : State) : Answer :=
  if s.seq.state ≠ .closed then ⟨s, .refusedState, s.consentData, .quiet⟩
  else if closure ≠ s.seq.closure then ⟨s, .refusedStale, s.consentData, .quiet⟩
  else if (s.lane l).hold then ⟨s, .refusedState, s.consentData, .quiet⟩
  else
    let t := s.giveConsent l closure
    Answer.acts t t.consentData

/-- CONSENT (R90): the permission table lets it through from the lane ports alone. -/
def consent (p : Port) (closure : Half) (s : State) : Answer :=
  match p.lane with
  | some l => consentOf l closure s
  | none => ⟨s, .refusedPort, s.consentData, .quiet⟩

/-- A used section an octet names, for the range checks of R30 and R95. -/
def usedSection (s : State) (o : Octet) : Option SectionId :=
  match sectionOf o with
  | some x => if (s.sect x).place.isSome then some x else none
  | none => none

/-- AGREE-RESET (R95): the permission table lets it through from the lane ports alone. -/
def agreeReset (p : Port) (sect : Octet) (s : State) : Answer :=
  match p.lane with
  | none => Answer.refuse s .refusedPort
  | some l =>
    match s.usedSection sect with
    | none => Answer.refuse s .refusedRange
    | some x =>
      if (s.sect x).state = .disturbed then
        Answer.quiet (s.setLane l { s.lane l with agreement := some ⟨x, s.now⟩ }) []
      else Answer.refuse s .refusedState

/-- DEPART (R75). -/
def depart (number : Octet) (s : State) : Answer :=
  if number = 0 then Answer.refuse s .refusedRange
  else
    match s.slotOf number.toNat with
    | none => Answer.refuse s .refusedState
    | some k =>
      if ((s.slot k).map Movement.state) = some .standing then
        Answer.acts (s.recompute k ⟨false, false, true, s.now⟩) []
      else Answer.refuse s .refusedState

/-- A movement may be made STANDING (R73). -/
def mayStand (s : State) (m : Movement) : Bool := m.state == .due && s.haltedAlone m && s.overdue m

/-- REOPEN-STANDING (R73). -/
def reopenStanding (number : Octet) (s : State) : Answer :=
  if number = 0 then Answer.refuse s .refusedRange
  else
    match s.slotOf number.toNat with
    | none => Answer.refuse s .refusedState
    | some k =>
      match s.slot k with
      | none => Answer.refuse s .refusedState
      | some m =>
        if s.mayStand m then Answer.acts (s.enterMovement k m (some .due) .standing s.now) []
        else Answer.refuse s .refusedState

/-- An end head of a section is FAILED (R31). -/
def endHeadFailed (s : State) (p : Place) : Bool := (s.head p.aHead).failure.isSome || (s.head p.bHead).failure.isSome

/-- Put a section into RESTORING (R32); the agreements that name it are dropped (R96). -/
def beginSweep (s : State) (x : SectionId) : State := (s.setSection x (s.sect x).sweeping).sectionLeft x

/-- RESET-SECTION (R30 to R32, R35). -/
def resetSection (sect kind : Octet) (s : State) : Answer :=
  match s.usedSection sect, RestoreKind.ofCode kind with
  | some x, some k =>
    match (s.sect x).place with
    | none => Answer.refuse s .refusedRange
    | some p =>
      if (s.sect x).state ≠ .disturbed ∨ s.endHeadFailed p = true then Answer.refuse s .refusedState
      else
        match k with
        | .sweep => Answer.acts (s.beginSweep x) []
        | .direct => if s.agreed x then Answer.acts (s.restore x .direct) [] else Answer.refuse s .refusedState
  | _, _ => Answer.refuse s .refusedRange

end State

/-- HOLD (R88). -/
def execHold (dt : Nat) (p : Port) (tag : Octet) (s : State) : Host.Outcome State Fault Refusal :=
  .next (s.request dt .hold p tag [] (State.hold p))

/-- RELEASE (R88). -/
def execRelease (dt : Nat) (p : Port) (tag : Octet) (s : State) : Host.Outcome State Fault Refusal :=
  .next (s.request dt .release p tag [] (State.release p))

/-- CONSENT (R90). -/
def execConsent (dt : Nat) (p : Port) (tag : Octet) (closure : Half) (s : State) : Host.Outcome State Fault Refusal :=
  .next (s.request dt .consent p tag (half closure) (State.consent p closure))

/-- AGREE-RESET (R95). -/
def execAgreeReset (dt : Nat) (p : Port) (tag : Octet) (sect : Octet) (s : State) : Host.Outcome State Fault Refusal :=
  .next (s.request dt .agreeReset p tag [sect] (State.agreeReset p sect))

/-- DEPART (R75). -/
def execDepart (dt : Nat) (p : Port) (tag : Octet) (number : Octet) (s : State) : Host.Outcome State Fault Refusal :=
  .next (s.request dt .depart p tag [number] (State.depart number))

/-- REOPEN-STANDING (R73). -/
def execReopenStanding (dt : Nat) (p : Port) (tag : Octet) (number : Octet) (s : State) :
    Host.Outcome State Fault Refusal :=
  .next (s.request dt .reopenStanding p tag [number] (State.reopenStanding number))

/-- RESET-SECTION (R30). -/
def execResetSection (dt : Nat) (p : Port) (tag : Octet) (sect kind : Octet) (s : State) :
    Host.Outcome State Fault Refusal :=
  .next (s.request dt .resetSection p tag [sect, kind] (State.resetSection sect kind))

end Sys2Proof.Machine
end

