-- ==== Sys2Proof/Machine/Maintenance.lean ====
section
/-!
DEFINITION. Maintenance: PERMIT-MAINTENANCE and WITHDRAW-PERMIT (R97), ENTER-MAINTENANCE (R121), LEAVE-MAINTENANCE (R122),
BOOM-TEST (R145), LAMP-TEST (R147) and RESTART (R193).
-/
namespace Sys2Proof.Machine

namespace State

/-- Make the maintenance permit granted or absent (R97). -/
def setPermit (s : State) (granted : Bool) : State := s.onStances fun v => { v with permit := granted }

/-- End the lamp test (R147). -/
def endLampTest (s : State) : State :=
  match s.out.lampTest with
  | none => s
  | some x => (s.setLamp x.channel { s.lamp x.channel with underTest := false }).onOut fun o => { o with lampTest := none }

/-- Maintenance ends (R122): the mode, maintenance active, the configuration mark and the tests. -/
def endMaintenance (s : State) : State :=
  let s := s.onMon fun v => { v with mode := .normal }
  let s := s.onStances fun v => { v with maintenance := false }
  let s := s.onSeq fun q => { q with configMark := false }
  s.endBoomTests.endLampTest

/-- Maintenance begins (R98, R121): every consent is dropped (R92). -/
def beginMaintenance (s : State) : State :=
  (s.onMon fun v => { v with mode := .maintenance }).onStances fun v => { v with maintenance := true }.dropConsents

/-- PERMIT-MAINTENANCE (R97). -/
def permitMaintenance (s : State) : Answer := Answer.quiet (s.setPermit true) []

/-- WITHDRAW-PERMIT (R97). -/
def withdrawPermit (s : State) : Answer :=
  if s.stances.maintenance then Answer.acts (s.setPermit false).endMaintenance []
  else Answer.quiet (s.setPermit false) []

/-- ENTER-MAINTENANCE (R121). -/
def enterMaintenance (s : State) : Answer :=
  if s.stances.permit && (s.seq.state == .closed || s.seq.state == .failedClosed) then
    Answer.acts s.beginMaintenance []
  else Answer.refuse s .refusedState

/-- LEAVE-MAINTENANCE (R122). -/
def leaveMaintenance (s : State) : Answer := Answer.acts s.endMaintenance []

/-- A boom test holds a boom other than this one (R145). -/
def otherTested (s : State) (i : BoomId) : Bool := BoomId.all.any fun j => j != i && (s.boom j).source == .test

/-- Give a boom a test order (R145). -/
def testBoom (s : State) (i : BoomId) (o : Order) : State :=
  s.setBoom i (({ s.boom i with source := .test } : Boom).takeOrder o s.uptime s.cfg.travelMs)

/-- BOOM-TEST (R145): the state checks in their order. -/
def boomTest (boom direction : Octet) (s : State) : Answer :=
  match BoomId.ofCode boom, Order.ofCode direction with
  | some i, some o =>
    if s.approach.traffic then Answer.refuse s .refusedState
    else if (s.boom i).state = .stopped then Answer.refuse s .refusedState
    else if s.otherTested i then Answer.refuse s .busy
    else Answer.acts (s.testBoom i o) []
  | _, _ => Answer.refuse s .refusedRange

/-- Begin a lamp test (R147). -/
def beginLampTest (s : State) (c : Channel) : State :=
  (s.setLamp c { s.lamp c with underTest := true }).onOut fun o =>
    { o with lampTest := some ⟨c, after s.now lampTestMs⟩ }

/-- LAMP-TEST (R147). -/
def lampTest (channel : Octet) (s : State) : Answer :=
  match Channel.ofCode channel with
  | none => Answer.refuse s .refusedRange
  | some c => if s.out.lampTest.isSome then Answer.refuse s .busy else Answer.acts (s.beginLampTest c) []

/-- RESTART (R193): the reset follows the reply, which is lost with the buffer (R172). -/
def restartRequest (s : State) : Answer := ⟨s, .done, [], .restarts⟩

/-- The effect of the end of a lamp test (R147). -/
def lampTestEndEffect (s : State) : Option State :=
  match s.out.lampTest with
  | some x => if reached s.now x.expiry then some s.endLampTest else none
  | none => none

end State

/-- PERMIT-MAINTENANCE (R97). -/
def execPermitMaintenance (dt : Nat) (p : Port) (tag : Octet) (s : State) : Host.Outcome State Fault Refusal :=
  .next (s.request dt .permitMaintenance p tag [] State.permitMaintenance)

/-- WITHDRAW-PERMIT (R97). -/
def execWithdrawPermit (dt : Nat) (p : Port) (tag : Octet) (s : State) : Host.Outcome State Fault Refusal :=
  .next (s.request dt .withdrawPermit p tag [] State.withdrawPermit)

/-- ENTER-MAINTENANCE (R121). -/
def execEnterMaintenance (dt : Nat) (p : Port) (tag : Octet) (s : State) : Host.Outcome State Fault Refusal :=
  .next (s.request dt .enterMaintenance p tag [] State.enterMaintenance)

/-- LEAVE-MAINTENANCE (R122). -/
def execLeaveMaintenance (dt : Nat) (p : Port) (tag : Octet) (s : State) : Host.Outcome State Fault Refusal :=
  .next (s.request dt .leaveMaintenance p tag [] State.leaveMaintenance)

/-- BOOM-TEST (R145). -/
def execBoomTest (dt : Nat) (p : Port) (tag : Octet) (boom direction : Octet) (s : State) :
    Host.Outcome State Fault Refusal :=
  .next (s.request dt .boomTest p tag [boom, direction] (State.boomTest boom direction))

/-- LAMP-TEST (R147). -/
def execLampTest (dt : Nat) (p : Port) (tag : Octet) (channel : Octet) (s : State) : Host.Outcome State Fault Refusal :=
  .next (s.request dt .lampTest p tag [channel] (State.lampTest channel))

/-- RESTART (R193). -/
def execRestart (dt : Nat) (p : Port) (tag : Octet) (s : State) : Host.Outcome State Fault Refusal :=
  .next (s.request dt .restart p tag [] State.restartRequest)

/-- LAMP_TEST_END (R147). -/
def execLampTestEnd (dt : Nat) (s : State) : Host.Outcome State Fault Refusal :=
  .next (s.event dt State.lampTestEndEffect)

end Sys2Proof.Machine
end

