-- ==== Sys2Proof/Machine/Loading.lean ====
section
/-!
DEFINITION. The configuration store as the service terminal works it: LOAD-WINDOW (R183), LOAD-DATA and LOAD-CONTINUE (R184),
READ-WINDOW (R185), COMMIT (R186, R187) with its effect on every block (R16, R38, R60, R81, R86, R99, R115), and the end of a
store write (R188).
-/
namespace Sys2Proof.Machine

/-- The write expiry after the start of a write, in ms (R182). -/
def writeMs : Nat := 400

/-- A write is in flight (R182). -/
def Store.busy (v : Store) : Bool :=
  match v.state with
  | .writing _ => true
  | .idle | .reading _ => false

/-- The entry tests of a window over a table (R183). -/
def entriesFail (t : TableId) (first last : Octet) : Bool := first.toNat > last.toNat || last.toNat ≥ t.entries

namespace State

/-! ## The load window -/

/-- LOAD-WINDOW (R183). -/
def loadWindow (table first last : Octet) (s : State) : Answer :=
  match TableId.ofCode table with
  | none => Answer.refuse s .refusedRange
  | some t =>
    if entriesFail t first last then Answer.refuse s .refusedRange
    else if s.store.busy then Answer.refuse s .busy
    else
      Answer.quiet (s.onPorts fun v => { v with window := some ⟨t, first.toNat, last.toNat, first.toNat⟩ }) []

/-- Write entries into the staging copy from a position of the window (R184). -/
def writeStaging (s : State) (w : LoadWindow) (position count : Nat) (entries : List Octet) : Answer :=
  let (image, pos, written) := ConfigImage.writeRun w.table w.last count entries (s.store.staging, position, 0)
  let t := (s.onStore fun v => { v with staging := image }).onPorts fun v =>
    { v with window := some { w with position := pos } }
  Answer.quiet t [octet written, octet (count - written)]

/-- LOAD-DATA or LOAD-CONTINUE, from the position that `start` gives in the window (R184). -/
def loadEntries (table count : Octet) (entries : List Octet) (start : LoadWindow → Nat) (s : State) : Answer :=
  if s.store.busy then Answer.refuse s .busy
  else
    match s.ports.window with
    | none => Answer.refuse s .refusedState
    | some w =>
      if TableId.ofCode table = some w.table then s.writeStaging w (start w) count.toNat entries
      else Answer.refuse s .refusedState

/-- LOAD-DATA (R184): from the window's first entry. -/
def loadData (table count : Octet) (entries : List Octet) (s : State) : Answer :=
  s.loadEntries table count entries LoadWindow.first

/-- LOAD-CONTINUE (R184): from where the last write left the position. -/
def loadContinue (table count : Octet) (entries : List Octet) (s : State) : Answer :=
  s.loadEntries table count entries LoadWindow.position

/-- The copy a code names (R185): range, absence, or the copy. -/
def copyOf (s : State) (copy : Octet) : Except ReplyOutcome ConfigImage :=
  match copy.toNat with
  | 0 => .ok s.store.staging
  | 1 => match s.store.active with
    | some c => .ok c
    | none => .error .refusedState
  | 2 => if s.store.imageValid then .ok s.store.image else .error .refusedState
  | _ => .error .refusedRange

/-- READ-WINDOW (R185): the ranges before the state. -/
def readWindow (copy table first last : Octet) (s : State) : Answer :=
  match TableId.ofCode table with
  | none => Answer.refuse s .refusedRange
  | some t =>
    if copy.toNat > 2 || entriesFail t first last then Answer.refuse s .refusedRange
    else
      match s.copyOf copy with
      | .error o => Answer.refuse s o
      | .ok c =>
        Answer.quiet s ([copy, table, first, last] ++ s.generationOctets ++ windowItems first last (c.entryOctets t))

/-! ## Commit -/

/-- The commit changes the topology (R38): there is no active copy, or SECTIONS or HEADS differ. -/
def topologyChanges (old : Option ConfigImage) (new : ConfigImage) : Bool :=
  match old with
  | none => true
  | some c => c.sections != new.sections || c.heads != new.heads

/-- A head's entry changes by the commit; from no active copy every one does (R16, R187). -/
def headChanges (old : Option ConfigImage) (new : ConfigImage) (h : HeadId) : Bool :=
  match old with
  | none => true
  | some c => c.heads[h] != new.heads[h]

/-- MAP, PROFILES, the amber time or the compact flag changes (R81). -/
def timingChanges (old new : ConfigImage) : Bool :=
  old.map != new.map || old.profiles != new.profiles || old.sequence.amber != new.sequence.amber ||
  old.sequence.compact != new.sequence.compact

/-- The section records after a change of topology, before the disturbance (R38). -/
def replaceSections (s : State) (new : ConfigImage) : State :=
  s.onSections fun v => Vector.ofFn fun x : SectionId =>
    match new.sections[x].place with
    | none => Section.unused
    | some p => { v[x] with place := some p, list := [] }

/-- Every used section enters DISTURBED with cause CONFIG; the faults of unused ones are cleared (R38, R49). -/
def disturbAll (s : State) : State :=
  (List.finRange 10).foldl (fun s x =>
    if (s.sect x).place.isSome then s.disturb x .config
    else (s.clear .sectionDisturbed (.sect x)).clearFullFaults x) s

/-- The heads whose entries change begin observing afresh (R16). -/
def reobserve (s : State) (old : Option ConfigImage) (new : ConfigImage) : State :=
  s.onHeads fun v => Vector.ofFn fun h : HeadId =>
    if headChanges old new h then { (v[h].observe s.uptime) with partials := 0 } else v[h]

/-- A change of topology in every block (R38, R60, R96, R115). -/
def changeTopology (s : State) (old : Option ConfigImage) (new : ConfigImage) : State :=
  let s := ((s.discardMovements.replaceSections new).disturbAll).reobserve old new
  let s := s.onStances Stances.dropAgreements
  s.onSeq fun q => { q with configMark := true, causes := { q.causes with config := true } }

/-- Recompute every movement that is not STANDING under a new map (R81). -/
def recomputeAll (s : State) : State :=
  (List.finRange 16).foldl (fun s k =>
    match s.slot k with
    | some m => if m.state = .standing then s else s.recompute k ⟨false, false, false, s.now⟩
    | none => s) s

/-- A change of the lane arrangement (R99); the two clears stand in the order of log 7. -/
def changeArrangement (s : State) (wasDual : Bool) : State :=
  if wasDual = s.cfg.dual then s
  else
    let s := s.onStances fun v => { v.dropConsents.dropAgreements with disagreement := none }
    if s.cfg.dual then s.setLane .b { LaneStance.initial with supervisedFrom := some s.now }
    else ((s.setLane .b LaneStance.initial).clear .laneLost (.lane .b)).clear .laneDisagree (.lane .b)

/-- A PRESENT lane whose last contact is older than a new lane contact time becomes LOST (R86). -/
def applyContactTime (s : State) (l : Lane) : State :=
  let x := s.lane l
  match x.contact, x.lastContact with
  | .present, some t => if s.cfg.takesPart l && since s.now t > s.cfg.laneContactMs then s.loseLane l else s
  | _, _ => s

/-- The lanes under a new SEQUENCE table (R86, R99), Lane A first (log 7). -/
def changeLanes (s : State) (old : ConfigImage) : State :=
  let s := s.changeArrangement old.dual
  if s.cfg.laneContactMs = old.laneContactMs then s else (s.applyContactTime .a).applyContactTime .b

/-- A store write begins (R187, R182). -/
def beginWrite (s : State) : State :=
  s.onStore fun v => { v with state := .writing (after s.now writeMs), imageValid := false, imageAgrees := false }

/-- The mode after a commit (R187, R194): UNCONFIGURED becomes MAINTENANCE. -/
def leaveUnconfigured (s : State) : State := if s.mon.mode = .unconfigured then s.beginMaintenance else s

/-- An accepted commit (R187): movements and sections, then the lanes, then the mode and the clear of CONFIG-INVALID (log 7). -/
def accept (s : State) : State :=
  let old := s.store.active
  let before := s.cfg
  let new := s.store.staging
  let s := s.onStore fun v => { v with active := some new }
  let s := if topologyChanges old new then s.changeTopology old new
    else if timingChanges before new then s.recomputeAll else s
  ((s.changeLanes before).leaveUnconfigured.clear .configInvalid .configuration).beginWrite

/-- COMMIT (R186, R187): BUSY first, then the eleven checks. -/
def commit (s : State) : Answer :=
  if s.store.busy then Answer.refuse s .busy
  else
    match s.store.staging.failedCheck with
    | some n => ⟨s, .refusedRange, [octet n], .quiet⟩
    | none => ⟨s.accept, .done, [], if topologyChanges s.store.active s.store.staging then .topology else .acts⟩

/-! ## The end of a write (R188) -/

/-- A write ends with success: the image holds the active copy. -/
def writeSucceeds (s : State) : State :=
  let c := s.cfg
  (s.onStore fun v =>
    { v with state := .idle, image := c, imageCheck := Config.checkValue c, imageAgrees := true, imageValid := true }).clear
    .storeWriteFailed .configuration

/-- A write ends as a failure: the image stays not valid. -/
def writeFails (s : State) : State :=
  (s.onStore fun v => { v with state := .idle }).raise .storeWriteFailed .configuration

/-- The effect of the store's write-completion event (R188). -/
def writeCompletionEffect (success : Bool) (s : State) : Option State :=
  if s.store.busy then some (if success then s.writeSucceeds else s.writeFails) else none

/-- The effect of the write expiry (R188). -/
def writeExpiryEffect (s : State) : Option State :=
  match s.store.state with
  | .writing t => if reached s.now t then some s.writeFails else none
  | .idle | .reading _ => none

end State

/-- LOAD-WINDOW (R183). -/
def execLoadWindow (dt : Nat) (p : Port) (tag : Octet) (table first last : Octet) (s : State) :
    Host.Outcome State Fault Refusal :=
  .next (s.request dt .loadWindow p tag [table, first, last] (State.loadWindow table first last))

/-- LOAD-DATA (R184). -/
def execLoadData (dt : Nat) (p : Port) (tag : Octet) (table count : Octet) (entries : List Octet) (s : State) :
    Host.Outcome State Fault Refusal :=
  .next (s.request dt .loadData p tag (table :: count :: entries) (State.loadData table count entries))

/-- LOAD-CONTINUE (R184). -/
def execLoadContinue (dt : Nat) (p : Port) (tag : Octet) (table count : Octet) (entries : List Octet) (s : State) :
    Host.Outcome State Fault Refusal :=
  .next (s.request dt .loadContinue p tag (table :: count :: entries) (State.loadContinue table count entries))

/-- READ-WINDOW (R185). -/
def execReadWindow (dt : Nat) (p : Port) (tag : Octet) (copy table first last : Octet) (s : State) :
    Host.Outcome State Fault Refusal :=
  .next (s.request dt .readWindow p tag [copy, table, first, last] (State.readWindow copy table first last))

/-- COMMIT (R186, R187). -/
def execCommit (dt : Nat) (p : Port) (tag : Octet) (s : State) : Host.Outcome State Fault Refusal :=
  .next (s.request dt .commit p tag [] State.commit)

/-- WRITE_COMPLETION (R188). -/
def execWriteCompletion (dt : Nat) (success : Bool) (s : State) : Host.Outcome State Fault Refusal :=
  .next (s.event dt (State.writeCompletionEffect success))

/-- WRITE_EXPIRY (R188). -/
def execWriteExpiry (dt : Nat) (s : State) : Host.Outcome State Fault Refusal := .next (s.event dt State.writeExpiryEffect)

end Sys2Proof.Machine
end

