-- ==== Sys2Proof/Machine/Timers.lean ====
section
/-!
DEFINITION. The expiries of the approach timer (R67, R72, R79), of the sequencer (R103, R107 to R109, R120) and of the
stance combiner (R86, R92, R94, R96). Each has no effect unless its timer runs and has run out (log 3).
-/
namespace Sys2Proof.Machine

namespace State

/-! ## The approach timer -/

/-- The effect of a due time reached (R67): DUE, with DUE-since the due time. -/
def dueEffect (k : SlotId) (s : State) : Option State :=
  match s.slot k with
  | none => none
  | some m =>
    match m.state, m.dueTime with
    | .arriving, some due => if reached s.now due then some (s.enterMovement k m (some .arriving) .due due) else none
    | _, _ => none

/-- The effect of a raise margin reached (R79): the raise blocker is formed anew as the event is finished. -/
def blockerEffect (k : SlotId) (s : State) : Option State :=
  match s.slot k with
  | none => none
  | some m => if s.blocks m then some s else none

/-- The effect of a maximum approach time exceeded (R72). -/
def longEffect (k : SlotId) (s : State) : Option State :=
  match s.slot k with
  | none => none
  | some m => if s.overstayed m && !m.longRaised then some (s.raiseLong k m) else none

/-! ## The sequencer -/

/-- The step timer of a state has run out (R103). -/
def stepExpired (s : State) (st : SeqState) : Bool :=
  s.seq.state == st &&
  match s.seq.stepTimer with
  | some t => reached s.now t
  | none => false

/-- The effect of the amber time's end (R107). -/
def amberEffect (s : State) : Option State := if s.stepExpired .amber then some (s.enterState .redWarning) else none

/-- The effect of the boom delay's end (R107). -/
def boomDelayEffect (s : State) : Option State :=
  if s.stepExpired .redWarning then some (s.enterState .entryLowering) else none

/-- The effect of the exit wait's end (R108). -/
def exitWaitEffect (s : State) : Option State :=
  if s.stepExpired .exitWait then some (s.enterState .exitLowering) else none

/-- The effect of the minimum closed time's end (R109). -/
def minimumClosedEffect (s : State) : Option State :=
  match s.seq.minClosed with
  | some (.running t) =>
    if reached s.now t then some (s.onSeq fun q => { q with minClosed := some .elapsed }) else none
  | _ => none

/-- The effect of the second-train timer's end (R120). -/
def secondTrainEffect (s : State) : Option State :=
  match s.seq.secondTrain with
  | some t => if reached s.now t then some (s.onSeq fun q => { q with secondTrain := none }) else none
  | none => none

/-! ## The stance combiner -/

/-- A lane is supervised for contact (R85, R99). -/
def supervised (s : State) (l : Lane) : Bool := s.cfg.takesPart l && s.mon.mode != .starting

/-- The effect of the lane contact time's end (R86). A CONSENT taken first is a contact, and the limit does not expire: the
consent stands (log 43 on R93). -/
def contactExpiryEffect (l : Lane) (s : State) : Option State :=
  match (s.lane l).contact, (s.lane l).lastContact with
  | .present, some t =>
    if s.supervised l && reached s.now (after t s.cfg.laneContactMs) then some (s.loseLane l) else none
  | _, _ => none

/-- The effect of the 10 s limit for a lane not heard (R86). -/
def notHeardEffect (l : Lane) (s : State) : Option State :=
  match (s.lane l).contact, (s.lane l).supervisedFrom with
  | .notHeard, some t =>
    if s.supervised l && reached s.now (after t notHeardMs) then some (s.loseLane l) else none
  | _, _ => none

/-- The effect of a consent's age (R92). -/
def consentExpiryEffect (l : Lane) (s : State) : Option State :=
  match (s.lane l).consent with
  | some g =>
    if reached s.now (after g.given consentMs) then some (s.onStances fun v => v.dropConsent l) else none
  | none => none

/-- The lane that carries no consent while the other does (R94). -/
def silentLane (s : State) : Lane := if (s.lane .a).consent.isSome then .b else .a

/-- The effect of 5 s of disagreement (R94). -/
def disagreeEffect (s : State) : Option State :=
  match s.stances.disagreement with
  | some d =>
    if !d.raised && s.disagreeing && reached s.now (after d.since disagreeMs) then
      some ((s.onStances fun v => { v with disagreement := some { d with raised := true } }).raise .laneDisagree
        (.lane s.silentLane))
    else none
  | none => none

/-- The effect of a reset agreement's age (R96). -/
def agreementLapseEffect (l : Lane) (s : State) : Option State :=
  match (s.lane l).agreement with
  | some g =>
    if reached s.now (after g.given agreementMs) then some (s.setLane l { s.lane l with agreement := none }) else none
  | none => none

end State

/-- DUE_TIME_REACHED (R67). -/
def execDueTimeReached (dt : Nat) (k : SlotId) (s : State) : Host.Outcome State Fault Refusal :=
  .next (s.event dt (State.dueEffect k))

/-- RAISE_BLOCKER_APPEARS (R79). -/
def execRaiseBlockerAppears (dt : Nat) (k : SlotId) (s : State) : Host.Outcome State Fault Refusal :=
  .next (s.event dt (State.blockerEffect k))

/-- LONG_APPROACH_EXPIRY (R72). -/
def execLongApproachExpiry (dt : Nat) (k : SlotId) (s : State) : Host.Outcome State Fault Refusal :=
  .next (s.event dt (State.longEffect k))

/-- AMBER_EXPIRY (R107). -/
def execAmberExpiry (dt : Nat) (s : State) : Host.Outcome State Fault Refusal := .next (s.event dt State.amberEffect)

/-- BOOM_DELAY_EXPIRY (R107). -/
def execBoomDelayExpiry (dt : Nat) (s : State) : Host.Outcome State Fault Refusal :=
  .next (s.event dt State.boomDelayEffect)

/-- EXIT_WAIT_EXPIRY (R108). -/
def execExitWaitExpiry (dt : Nat) (s : State) : Host.Outcome State Fault Refusal :=
  .next (s.event dt State.exitWaitEffect)

/-- MINIMUM_CLOSED_EXPIRY (R109). -/
def execMinimumClosedExpiry (dt : Nat) (s : State) : Host.Outcome State Fault Refusal :=
  .next (s.event dt State.minimumClosedEffect)

/-- SECOND_TRAIN_EXPIRY (R120). -/
def execSecondTrainExpiry (dt : Nat) (s : State) : Host.Outcome State Fault Refusal :=
  .next (s.event dt State.secondTrainEffect)

/-- LANE_CONTACT_EXPIRY (R86). -/
def execLaneContactExpiry (dt : Nat) (l : Lane) (s : State) : Host.Outcome State Fault Refusal :=
  .next (s.event dt (State.contactExpiryEffect l))

/-- LANE_NOT_HEARD_EXPIRY (R86). -/
def execLaneNotHeardExpiry (dt : Nat) (l : Lane) (s : State) : Host.Outcome State Fault Refusal :=
  .next (s.event dt (State.notHeardEffect l))

/-- CONSENT_EXPIRY (R92). -/
def execConsentExpiry (dt : Nat) (l : Lane) (s : State) : Host.Outcome State Fault Refusal :=
  .next (s.event dt (State.consentExpiryEffect l))

/-- LANE_DISAGREE_EXPIRY (R94). -/
def execLaneDisagreeExpiry (dt : Nat) (s : State) : Host.Outcome State Fault Refusal :=
  .next (s.event dt State.disagreeEffect)

/-- RESET_AGREEMENT_LAPSE (R96). -/
def execResetAgreementLapse (dt : Nat) (l : Lane) (s : State) : Host.Outcome State Fault Refusal :=
  .next (s.event dt (State.agreementLapseEffect l))

end Sys2Proof.Machine
end

