-- ==== Sys2Proof/Machine/BoomEvents.lean ====
section
/-!
DEFINITION. The events of the booms: CONTACT_CHANGE (R127), SETTLE_EXPIRY (R130), BOOM_TRAVEL_EXPIRY and REST_MARK_EXPIRY
(R131), CONTACT_CONFLICT_EXPIRY (R132) and BOOM_RECOVERY_EXPIRY (R135). While outputs are off the contacts alone are kept
(R148).
-/
namespace Sys2Proof.Machine

/-- The conditioned state of a contact of a boom (R127). -/
def Boom.made (b : Boom) : ContactId → Bool
  | .up => b.upContact.made
  | .down => b.downContact.made

namespace State

/-- The effect of a contact that has shown a level for the 20 ms (R127): none while it shows the state the contact has. -/
def contactEffect (i : BoomId) (c : ContactId) (made : Bool) (held : Nat) (s : State) : Option State :=
  match settledRun s.uptime held s.out.conditionedFrom contactDebounce with
  | none => none
  | some run =>
    if (s.boom i).made c = made then none
    else some ((s.setBoom i ((s.boom i).contact c made run)).followContact i)

/-- A test order of LOWER ends as its boom reaches DOWN (R146). -/
def endTestDown (s : State) (i : BoomId) : State :=
  if (s.boom i).state = .down ∧ (s.boom i).source = .test ∧ (s.boom i).order = .lower then s.endBoomTest i else s

/-- The effect of a settle's end (R130). -/
def settleEffect (i : BoomId) (s : State) : Option State :=
  match (s.boom i).pending, (s.boom i).settleExpiry with
  | some o, some t =>
    if (s.boom i).state = .settling ∧ reached s.now t = true then
      some ((s.setBoom i ((s.boom i).actOnPending o t s.cfg.travelMs)).endTestDown i)
    else none
  | _, _ => none

/-- The effect of a travel limit's end (R131). -/
def travelEffect (i : BoomId) (s : State) : Option State :=
  match (s.boom i).travelExpiry with
  | some t =>
    if s.out.driven && ((s.boom i).state == .lowering || (s.boom i).state == .raising) && reached s.now t then
      some (s.stopBoom i .boomTravelTimeout)
    else none
  | none => none

/-- The effect of a rest mark's end (R131). -/
def restMarkEffect (i : BoomId) (s : State) : Option State :=
  match (s.boom i).restMark with
  | some t =>
    if reached s.now (after t settleMs) then some (s.setBoom i { s.boom i with restMark := none }) else none
  | none => none

/-- A STOPPED boom adds a contact conflict to its failure kinds (R132). -/
def addConflict (s : State) (i : BoomId) : State :=
  (s.setBoom i { s.boom i with failures := { (s.boom i).failures with conflict := true } }).raise .boomContactConflict
    (.boom i)

/-- The effect of 200 ms of contact conflict (R132). -/
def conflictEffect (i : BoomId) (s : State) : Option State :=
  match (s.boom i).conflictSince with
  | some t =>
    if s.out.driven && reached s.now (after t conflictMs) then
      if (s.boom i).state ≠ .stopped then some (s.stopBoom i .boomContactConflict)
      else if (s.boom i).failures.conflict then none
      else some (s.addConflict i)
    else none
  | none => none

/-- Clear the faults of a boom (R135), in the order of log 7. -/
def clearBoomFaults (s : State) (i : BoomId) : State :=
  ((s.clear .boomTravelTimeout (.boom i)).clear .boomContactConflict (.boom i)).clear .boomDisplaced (.boom i)

/-- A STOPPED boom recovers to DOWN (R135). -/
def recoverBoom (s : State) (i : BoomId) : State :=
  (s.setBoom i { s.boom i with
    state := .down, restMark := none, recoverySince := none, failures := BoomFailures.none }).clearBoomFaults i

/-- The effect of 2 s at the DOWN contact (R135). -/
def boomRecoveryEffect (i : BoomId) (s : State) : Option State :=
  match (s.boom i).recoverySince with
  | some t =>
    if s.out.driven && (s.boom i).state == .stopped && reached s.now (after t boomRecoveryMs) then
      some (s.recoverBoom i)
    else none
  | none => none

end State

/-- CONTACT_CHANGE (R127). -/
def execContactChange (dt : Nat) (i : BoomId) (c : ContactId) (made : Bool) (held : Nat) (s : State) :
    Host.Outcome State Fault Refusal :=
  .next (s.event dt (State.contactEffect i c made held))

/-- SETTLE_EXPIRY (R130). -/
def execSettleExpiry (dt : Nat) (i : BoomId) (s : State) : Host.Outcome State Fault Refusal :=
  .next (s.event dt (State.settleEffect i))

/-- BOOM_TRAVEL_EXPIRY (R131). -/
def execBoomTravelExpiry (dt : Nat) (i : BoomId) (s : State) : Host.Outcome State Fault Refusal :=
  .next (s.event dt (State.travelEffect i))

/-- REST_MARK_EXPIRY (R131). -/
def execRestMarkExpiry (dt : Nat) (i : BoomId) (s : State) : Host.Outcome State Fault Refusal :=
  .next (s.event dt (State.restMarkEffect i))

/-- CONTACT_CONFLICT_EXPIRY (R132). -/
def execContactConflictExpiry (dt : Nat) (i : BoomId) (s : State) : Host.Outcome State Fault Refusal :=
  .next (s.event dt (State.conflictEffect i))

/-- BOOM_RECOVERY_EXPIRY (R135). -/
def execBoomRecoveryExpiry (dt : Nat) (i : BoomId) (s : State) : Host.Outcome State Fault Refusal :=
  .next (s.event dt (State.boomRecoveryEffect i))

end Sys2Proof.Machine
end

