-- ==== Sys2Proof/Machine/LampEvents.lean ====
section
/-!
DEFINITION. The events of the lamps and of the audible warning: PHASE_END (R138), PULSE_TIMER_EXPIRY and PROVING_PULSE_END
(R141), and TONE_END (R144).
-/
namespace Sys2Proof.Machine

namespace State

/-- Judge every channel at the end of a phase (R138 to R140). -/
def judgeAll (s : State) (i : Currents) : State := Channel.all.foldl (fun s c => s.judgePhase c (i.of c)) s

/-- The next phase begins where the last one ended (R136, log 36). -/
def nextPhase (s : State) : State :=
  s.onOut fun o =>
    o.beginPhase s.seq.state o.flash.flashing o.flash.phase.next (after o.flash.phaseEnd s.cfg.phaseMs)

/-- The effect of a phase's end (R138). -/
def phaseEffect (i : Currents) (s : State) : Option State :=
  if s.out.driven && reached s.now s.out.flash.phaseEnd then some (s.judgeAll i).nextPhase else none

/-- Begin a proving pulse in the four red channels (R141): the dark phase it falls in is not judged for them. -/
def beginPulse (s : State) : State :=
  s.onOut fun o =>
    { o with
      pulse := some (after s.now pulseMs)
      lamps := Lamps.build fun c =>
        if c.isRed then { o.lamps.get c with whole := false } else o.lamps.get c }

/-- The effect of the pulse timer's end (R141): it restarts, and with the reds dark a pulse begins. -/
def pulseTimerEffect (s : State) : Option State :=
  match s.out.pulseTimer with
  | some t =>
    if reached s.now t then
      let s := s.onOut fun o => { o with pulseTimer := some (after t pulseTimerMs) }
      some (if s.out.flash.flashing then s else s.beginPulse)
    else none
  | none => none

/-- Judge the four reds by their pulse windows (R141). -/
def judgePulse (s : State) (i : RedCurrents) : State :=
  (Channel.all.filter Channel.isRed).foldl (fun s c => s.judgeLit c (s.cfg.inPulseWindow c (i.of c))) s

/-- The effect of a proving pulse's end (R141). -/
def pulseEffect (i : RedCurrents) (s : State) : Option State :=
  match s.out.pulse with
  | some t =>
    if reached s.now t then some ((s.onOut fun o => { o with pulse := none }).judgePulse i) else none
  | none => none

/-- The next tone begins where the last one ended (R143, log 36). -/
def nextTone (s : State) (old : Tone) : State :=
  s.onOut fun o =>
    { o with audible := { o.audible with tone := toneFrom s.cfg o.audible.programme (!old.second) old.ends } }

/-- The effect of a tone's end (R143, R144). -/
def toneEffect (mA : Nat) (s : State) : Option State :=
  match s.out.audible.tone with
  | some old => if reached s.now old.ends then some ((s.judgeTone mA).nextTone old) else none
  | none => none

end State

/-- PHASE_END (R138). -/
def execPhaseEnd (dt : Nat) (i : Currents) (s : State) : Host.Outcome State Fault Refusal :=
  .next (s.event dt (State.phaseEffect i))

/-- PULSE_TIMER_EXPIRY (R141). -/
def execPulseTimerExpiry (dt : Nat) (s : State) : Host.Outcome State Fault Refusal :=
  .next (s.event dt State.pulseTimerEffect)

/-- PROVING_PULSE_END (R141). -/
def execProvingPulseEnd (dt : Nat) (i : RedCurrents) (s : State) : Host.Outcome State Fault Refusal :=
  .next (s.event dt (State.pulseEffect i))

/-- TONE_END (R144). -/
def execToneEnd (dt : Nat) (mA : Nat) (s : State) : Host.Outcome State Fault Refusal :=
  .next (s.event dt (State.toneEffect mA))

end Sys2Proof.Machine
end

