-- ==== Sys2Proof/Machine/Frames.lean ====
section
/-!
DEFINITION. REQUEST frames as octets (R173, R174): the frame check in its order, and the request a frame that passes it
carries; and the meaning of REQUEST_FRAME_FAILED, a frame handed in as it arrived.
-/
namespace Sys2Proof.Machine

/-- A frame that passes the frame check: its tag, its request and its arguments. -/
structure Frame where
  tag : Octet
  kind : RequestKind
  args : List Octet
deriving DecidableEq, Repr

/-- The length field of the octets after the transfer code, where it arrived. -/
def frameLength (l : List Octet) : Option Nat :=
  match l with
  | hi :: lo :: _ => some (hi ++ lo : Half).toNat
  | _ => none

/-- The frame check over the octets after the transfer code (R174): the first reason found in its order, or the frame. A
length field that did not arrive is SHORT (log 19). -/
def checkFrame (l : List Octet) : Except FrameReason Frame :=
  match frameLength l with
  | none => .error .short
  | some n =>
    if n < 2 ∨ 256 < n then .error .length
    else if l.length < n + 4 then .error .short
    else if n + 4 < l.length then .error .long
    else if half (crc (l.take (n + 2))) ≠ l.drop (n + 2) then .error .check
    else
      match RequestKind.ofCode (octetAt l 3) with
      | none => .error .code
      | some k =>
        let args := (l.drop 4).take (n - 2)
        if k.formHolds args then .ok ⟨octetAt l 2, k, args⟩ else .error .form

namespace State

/-- What a request does, by its kind and its argument octets (R174, R181). -/
def serve (k : RequestKind) (p : Port) (a : List Octet) : State → Answer :=
  match k with
  | .status => status
  | .poll => poll
  | .test => test (octetAt a 0)
  | .readMovements => readMovements (octetAt a 0) (octetAt a 1)
  | .readSections => readSections
  | .readHeads => readHeads
  | .readFaults => readFaults (octetAt a 0) (octetAt a 1)
  | .setAttention => setAttention p (octetAt a 0)
  | .hold => hold p
  | .release => release p
  | .consent => consent p (halfAt a 0)
  | .agreeReset => agreeReset p (octetAt a 0)
  | .depart => depart (octetAt a 0)
  | .reopenStanding => reopenStanding (octetAt a 0)
  | .resetSection => resetSection (octetAt a 0) (octetAt a 1)
  | .ackFault => ackFault (octetAt a 0)
  | .permitMaintenance => permitMaintenance
  | .withdrawPermit => withdrawPermit
  | .enterMaintenance => enterMaintenance
  | .leaveMaintenance => leaveMaintenance
  | .boomTest => boomTest (octetAt a 0) (octetAt a 1)
  | .lampTest => lampTest (octetAt a 0)
  | .setMasks => setMasks (halfAt a 0)
  | .restart => restartRequest
  | .loadWindow => loadWindow (octetAt a 0) (octetAt a 1) (octetAt a 2)
  | .loadData => loadData (octetAt a 0) (octetAt a 1) (a.drop 2)
  | .loadContinue => loadContinue (octetAt a 0) (octetAt a 1) (a.drop 2)
  | .readWindow => readWindow (octetAt a 0) (octetAt a 1) (octetAt a 2) (octetAt a 3)
  | .commit => commit

/-- A REQUEST transfer in which these octets arrived after the first (R173, R174). Its tag and code are echoed as they
arrived, and as 0 where they did not. -/
def takeFrame (s : State) (dt : Nat) (p : Port) (l : List Octet) : State :=
  let zeros := List.replicate l.length 0
  if s.mon.held then s.shiftOut p zeros
  else
    let s := (s.advance dt).shiftOut p zeros
    match checkFrame l with
    | .error r => s.frameError p (octetAt l 2) (octetAt l 3) r
    | .ok f => s.takeRequest f.kind p f.tag f.args (serve f.kind p f.args)

end State

/-- REQUEST_FRAME_FAILED (R174). A frame that passes the check is taken as the request it carries (log 19). -/
def execRequestFrameFailed (dt : Nat) (p : Port) (octets : List Octet) (s : State) : Host.Outcome State Fault Refusal :=
  .next (s.takeFrame dt p octets)

end Sys2Proof.Machine
end

