-- ==== Sys2Proof/Machine/Dispatch.lean ====
section
/-!
DEFINITION. The meaning of every command: one arm per constructor of `Instr`, each one direct call.
-/
namespace Sys2Proof.Machine

/-- The effect of a command on everything but the queue of waiting commands. -/
def exec (i : Instr) (s : State) : Host.Outcome State Fault Refusal :=
  match i with
  | .powerOn sense => Sys2Proof.Machine.execPowerOn sense s
  | .supplyReset dt sense => Sys2Proof.Machine.execSupplyReset dt sense s
  | .supplyResetHoldEnd sense => Sys2Proof.Machine.execSupplyResetHoldEnd sense s
  | .supplyStateChange dt sense => Sys2Proof.Machine.execSupplyStateChange dt sense s
  | .stabilisationWaitEnd dt => Sys2Proof.Machine.execStabilisationWaitEnd dt s
  | .readCompletion dt => Sys2Proof.Machine.execReadCompletion dt s
  | .readExpiry dt => Sys2Proof.Machine.execReadExpiry dt s
  | .transferIgnored dt port first => Sys2Proof.Machine.execTransferIgnored dt port first s
  | .collect dt port clocked => Sys2Proof.Machine.execCollect dt port clocked s
  | .status dt port tag => Sys2Proof.Machine.execStatus dt port tag s
  | .poll dt port tag => Sys2Proof.Machine.execPoll dt port tag s
  | .test dt port tag predicate => Sys2Proof.Machine.execTest dt port tag predicate s
  | .readMovements dt port tag first last => Sys2Proof.Machine.execReadMovements dt port tag first last s
  | .readSections dt port tag => Sys2Proof.Machine.execReadSections dt port tag s
  | .readHeads dt port tag => Sys2Proof.Machine.execReadHeads dt port tag s
  | .readFaults dt port tag first last => Sys2Proof.Machine.execReadFaults dt port tag first last s
  | .setAttention dt port tag mode => Sys2Proof.Machine.execSetAttention dt port tag mode s
  | .hold dt port tag => Sys2Proof.Machine.execHold dt port tag s
  | .release dt port tag => Sys2Proof.Machine.execRelease dt port tag s
  | .consent dt port tag closure => Sys2Proof.Machine.execConsent dt port tag closure s
  | .agreeReset dt port tag sect => Sys2Proof.Machine.execAgreeReset dt port tag sect s
  | .depart dt port tag number => Sys2Proof.Machine.execDepart dt port tag number s
  | .reopenStanding dt port tag number => Sys2Proof.Machine.execReopenStanding dt port tag number s
  | .resetSection dt port tag sect kind => Sys2Proof.Machine.execResetSection dt port tag sect kind s
  | .ackFault dt port tag id => Sys2Proof.Machine.execAckFault dt port tag id s
  | .permitMaintenance dt port tag => Sys2Proof.Machine.execPermitMaintenance dt port tag s
  | .withdrawPermit dt port tag => Sys2Proof.Machine.execWithdrawPermit dt port tag s
  | .enterMaintenance dt port tag => Sys2Proof.Machine.execEnterMaintenance dt port tag s
  | .leaveMaintenance dt port tag => Sys2Proof.Machine.execLeaveMaintenance dt port tag s
  | .boomTest dt port tag boom direction => Sys2Proof.Machine.execBoomTest dt port tag boom direction s
  | .lampTest dt port tag channel => Sys2Proof.Machine.execLampTest dt port tag channel s
  | .setMasks dt port tag masks => Sys2Proof.Machine.execSetMasks dt port tag masks s
  | .restart dt port tag => Sys2Proof.Machine.execRestart dt port tag s
  | .loadWindow dt port tag table first last => Sys2Proof.Machine.execLoadWindow dt port tag table first last s
  | .loadData dt port tag table count entries => Sys2Proof.Machine.execLoadData dt port tag table count entries s
  | .loadContinue dt port tag table count entries => Sys2Proof.Machine.execLoadContinue dt port tag table count entries s
  | .readWindow dt port tag copy table first last => Sys2Proof.Machine.execReadWindow dt port tag copy table first last s
  | .commit dt port tag => Sys2Proof.Machine.execCommit dt port tag s
  | .writeCompletion dt success => Sys2Proof.Machine.execWriteCompletion dt success s
  | .writeExpiry dt => Sys2Proof.Machine.execWriteExpiry dt s
  | .sensorEvent dt head side level held => Sys2Proof.Machine.execSensorEvent dt head side level held s
  | .sensorStuckExpiry dt head side => Sys2Proof.Machine.execSensorStuckExpiry dt head side s
  | .headRecovery dt head => Sys2Proof.Machine.execHeadRecovery dt head s
  | .attentionPulseEnd dt port => Sys2Proof.Machine.execAttentionPulseEnd dt port s
  | .dueTimeReached dt slot => Sys2Proof.Machine.execDueTimeReached dt slot s
  | .raiseBlockerAppears dt slot => Sys2Proof.Machine.execRaiseBlockerAppears dt slot s
  | .longApproachExpiry dt slot => Sys2Proof.Machine.execLongApproachExpiry dt slot s
  | .amberExpiry dt => Sys2Proof.Machine.execAmberExpiry dt s
  | .boomDelayExpiry dt => Sys2Proof.Machine.execBoomDelayExpiry dt s
  | .exitWaitExpiry dt => Sys2Proof.Machine.execExitWaitExpiry dt s
  | .minimumClosedExpiry dt => Sys2Proof.Machine.execMinimumClosedExpiry dt s
  | .secondTrainExpiry dt => Sys2Proof.Machine.execSecondTrainExpiry dt s
  | .laneContactExpiry dt lane => Sys2Proof.Machine.execLaneContactExpiry dt lane s
  | .laneNotHeardExpiry dt lane => Sys2Proof.Machine.execLaneNotHeardExpiry dt lane s
  | .consentExpiry dt lane => Sys2Proof.Machine.execConsentExpiry dt lane s
  | .laneDisagreeExpiry dt => Sys2Proof.Machine.execLaneDisagreeExpiry dt s
  | .resetAgreementLapse dt lane => Sys2Proof.Machine.execResetAgreementLapse dt lane s
  | .contactChange dt boom contact made held => Sys2Proof.Machine.execContactChange dt boom contact made held s
  | .settleExpiry dt boom => Sys2Proof.Machine.execSettleExpiry dt boom s
  | .boomTravelExpiry dt boom => Sys2Proof.Machine.execBoomTravelExpiry dt boom s
  | .restMarkExpiry dt boom => Sys2Proof.Machine.execRestMarkExpiry dt boom s
  | .contactConflictExpiry dt boom => Sys2Proof.Machine.execContactConflictExpiry dt boom s
  | .boomRecoveryExpiry dt boom => Sys2Proof.Machine.execBoomRecoveryExpiry dt boom s
  | .phaseEnd dt currents => Sys2Proof.Machine.execPhaseEnd dt currents s
  | .pulseTimerExpiry dt => Sys2Proof.Machine.execPulseTimerExpiry dt s
  | .provingPulseEnd dt currents => Sys2Proof.Machine.execProvingPulseEnd dt currents s
  | .lampTestEnd dt => Sys2Proof.Machine.execLampTestEnd dt s
  | .toneEnd dt current => Sys2Proof.Machine.execToneEnd dt current s
  | .requestFrameFailed dt port octets => Sys2Proof.Machine.execRequestFrameFailed dt port octets s

end Sys2Proof.Machine
end

