-- ==== Sys2Proof/Safety.lean ====
section
/-!
DEFINITION. What the statements about the part speak of: the invariants that every step keeps, the conditions and frames that
several statements share, and the layouts of R181 with the permission table of R175, written out from the spec's tables.
-/
namespace Sys2Proof.Machine

/-! ## Invariants -/

/-- The notice queue never holds more than 24 notices, nor more than one CROSSING-STATUS (R162), and none in STARTING (R170). -/
def QueueBounded (s : State) : Prop :=
  s.faults.queue.length ≤ queueCapacity ∧ s.faults.queue.countP Notice.isStatus ≤ 1 ∧
  (s.mon.mode = .starting → s.faults.queue = [])

/-- The proven flag is true only while the sequencer is CLOSED, all four booms are DOWN and the major lamp condition is
absent (R119). -/
def ProvenHolds (s : State) : Prop :=
  s.seq.proven = true → s.seq.state = .closed ∧ s.out.booms.allDown = true ∧ s.out.lamps.major = false

/-- A STOPPED boom holds the road in FAILED-CLOSED (R115). -/
def StoppedHolds (s : State) : Prop := s.out.booms.anyStopped = true → s.seq.state = .failedClosed

/-- The cause set has each cause only while its condition stands (R115, R116): BOOM exactly while a boom is STOPPED, LAMP only
with the major lamp condition present, START only before the mode is NORMAL, CONFIG exactly while the mode is UNCONFIGURED or the
configuration mark is set. -/
def CausesFollow (s : State) : Prop :=
  (s.seq.causes.boom = true ↔ ∃ i, (s.boom i).state = .stopped) ∧
  (s.seq.causes.lamp = true → s.out.lamps.major = true) ∧
  (s.seq.causes.start = true → s.mon.mode ≠ .normal) ∧
  (s.seq.causes.config = true ↔ s.mon.mode = .unconfigured ∨ s.seq.configMark = true)

/-- No two ordinary records of the fault table have the same kind and subject (R153). -/
def FaultsDistinct (u : FaultUnit) : Prop :=
  ∀ p q r r', u.table[p] = some r → u.table[q] = some r' → r.kind = r'.kind → r.subject = r'.subject → p = (q : Fin 31)

/-- The cleared order lists the ordinary records in state CLEARED, each once (R152). -/
def ClearedListed (u : FaultUnit) : Prop :=
  u.clearedOrder.Nodup ∧ ∀ p : Fin 31, p ∈ u.clearedOrder ↔ ∃ r, u.table[p] = some r ∧ r.state = FaultState.cleared

/-- Maintenance active is set exactly in the mode MAINTENANCE (R98). -/
def MaintenanceMatches (s : State) : Prop := s.stances.maintenance = true ↔ s.mon.mode = .maintenance

/-- The active copy is absent exactly in STARTING and UNCONFIGURED (R182). -/
def ActiveMatches (s : State) : Prop := s.store.active = none ↔ s.mon.mode = .starting ∨ s.mon.mode = .unconfigured

/-- Where start-up stands (R182, R190, R192): held, in the stabilisation wait, and in the image read the mode is STARTING,
and the three exclude one another. -/
def StartUpShape (s : State) : Prop :=
  (s.mon.held = true → s.mon.mode = .starting ∧ s.mon.stabilisation = none ∧ s.store.state = .idle) ∧
  (s.mon.stabilisation ≠ none → s.mon.mode = .starting ∧ s.store.state = .idle) ∧
  (∀ t, s.store.state = .reading t → s.mon.mode = .starting)

/-- The fields of a section record are present as R18 shows, its count and list within their limits, and in CLEAR and
OCCUPIED its state follows its count (R21). -/
def SectionShape (r : Section) : Prop :=
  r.count ≤ countLimit ∧ r.list.length ≤ listCapacity ∧
  (r.state = .disturbed → r.count = 0 ∧ r.list = []) ∧
  (r.state = .clear → r.count = 0) ∧
  (r.state = .occupied → r.count ≠ 0) ∧
  (r.cause ≠ none ↔ r.state = .disturbed ∨ r.state = .restoring) ∧
  (r.restore ≠ none ↔ r.state = .restoring) ∧
  (r.sweepEnd ≠ none → r.state = .restoring)

/-- Every section record has the shape of R18. -/
def SectionsShaped (s : State) : Prop := ∀ x, SectionShape (s.sect x)

/-- The fields of a boom record are present as R126 shows. -/
def BoomShape (b : Boom) : Prop :=
  (b.pending ≠ none ↔ b.state = .settling) ∧ (b.settleExpiry ≠ none ↔ b.state = .settling) ∧
  (b.travelExpiry ≠ none ↔ b.state = .lowering ∨ b.state = .raising) ∧
  (b.failures ≠ BoomFailures.none ↔ b.state = .stopped) ∧ (b.recoverySince ≠ none → b.state = .stopped)

/-- While outputs are driven, every boom record has the shape of R126. -/
def BoomsShaped (s : State) : Prop := s.out.driven = true → ∀ i, BoomShape (s.boom i)

/-- The attention line of a port record stands as its mode says (R180): never in OFF, while the queue holds a notice in
NOTICE, while a pulse lasts in the other two. -/
def LineFollows (waiting : Bool) (r : PortRecord) : Prop :=
  match r.mode with
  | .off => r.line = false
  | .notice => r.line = waiting
  | .change | .changeAndStep => r.line = r.pulseEnd.isSome

/-- Every attention line stands as R180 says; the Lane B line is deasserted in SINGLE. -/
def LinesFollow (s : State) : Prop :=
  LineFollows (!s.faults.queue.isEmpty) s.ports.laneA ∧
  (if s.cfg.dual then LineFollows (!s.faults.queue.isEmpty) s.ports.laneB
   else s.ports.laneB.line = false ∧ s.ports.laneB.pulseEnd = none) ∧
  LineFollows (!s.faults.queue.isEmpty) s.ports.signaller ∧ LineFollows (!s.faults.queue.isEmpty) s.ports.service

/-- What keeps the booms down while trains need them down (R104, R121, R128, R145, R146): each boom not under test has the order
of the sequencer's state; tests run in MAINTENANCE alone, on a boom that is not STOPPED, with the traffic condition absent;
MAINTENANCE finds the road closed; before the mode first becomes NORMAL the road is FAILED-CLOSED with the START cause; the
traffic condition handed is the one that stands. -/
def RoadHeld (s : State) : Prop :=
  (∀ i, (s.boom i).source = .sequencer → (s.boom i).order = s.seq.state.order i) ∧
  (∀ i, (s.boom i).source = .test → s.mon.mode = .maintenance ∧ (s.boom i).state ≠ .stopped ∧ s.approach.traffic = false) ∧
  (s.mon.mode = .maintenance → s.seq.state = .closed ∨ s.seq.state = .failedClosed) ∧
  (s.mon.mode = .starting ∨ s.mon.mode = .unconfigured → s.seq.state = .failedClosed ∧ s.seq.causes.start = true) ∧
  s.approach.traffic = s.trafficNow

/-- The axles a movement holds in a section (R42). -/
def axlesIn (m : Movement) (x : SectionId) : Nat := ((m.span.filter fun e => e.sect == x).map SpanEntry.axles).sum

/-- The axles that the movement of a slot holds in a section; none while the slot is free. -/
def State.axlesOf (s : State) (x : SectionId) (k : SlotId) : Nat :=
  match s.slot k with
  | some m => axlesIn m x
  | none => 0

/-- The movement table agrees with the section records (R22, R40 to R43): numbers from 1 to 255, no two the same; spans not
empty, no section twice, each entry with an axle; a section's list names, once each, the movements whose spans name the
section, and its count is the sum of the axles they hold there. In STARTING the table is empty and no head observes (R15,
R59). -/
def TableShape (s : State) : Prop :=
  (∀ k m, s.slot k = some m → 1 ≤ m.number ∧ m.number ≤ 255 ∧ m.span ≠ [] ∧ (m.span.map SpanEntry.sect).Nodup ∧
    ∀ e ∈ m.span, 1 ≤ e.axles) ∧
  (∀ j k m n, s.slot j = some m → s.slot k = some n → m.number = n.number → j = k) ∧
  (∀ x, (s.sect x).list.Nodup ∧ (∀ k, k ∈ (s.sect x).list ↔ ∃ m, s.slot k = some m ∧ x ∈ m.span.map SpanEntry.sect) ∧
    (s.sect x).count = ((s.sect x).list.map (s.axlesOf x)).sum) ∧
  (s.mon.mode = .starting → (∀ k, s.slot k = none) ∧ ∀ h, (s.head h).observedFrom = none)

/-- The audible programme of the sequencer's state, the second-train timer and the entry booms (R104, R120). -/
def State.programmeNow (s : State) : Programme :=
  match s.seq.state with
  | .open | .amber | .raising => .silent
  | .redWarning | .entryLowering => .warning
  | .exitWait | .exitLowering | .closed => if s.seq.secondTrain.isSome then .secondTrain else .silent
  | .reclosing => if s.out.booms.entriesDown then .silent else .warning
  | .failedClosed =>
    if s.seq.secondTrain.isSome then .secondTrain
    else if s.out.booms.entriesDown then .silent else .warning

/-- Tone 1 of the programme, begun now with its duration; no tone in SILENT (R143). -/
def State.firstTone (s : State) : Option Tone :=
  match s.out.audible.programme with
  | .silent => none
  | .warning => some ⟨false, s.cfg.toneHertz false, after s.now (s.cfg.warningMs false)⟩
  | .secondTrain => some ⟨false, s.cfg.toneHertz false, after s.now (s.cfg.secondTrainMs false)⟩

/-- While outputs are driven, lamps and audible warning follow the sequencer (R104, R137, R143, R147): the reds flash in every
state but OPEN and AMBER and while any boom is not UP; the left reds are lit in phase one and the right ones in phase two of
the flash, the ambers in AMBER, and a channel under test always; the programme is that of the state, the second train and the
entry booms; and a tone sounds exactly while it is not SILENT. -/
def OutputsFollow (s : State) : Prop :=
  s.out.driven = true →
    (s.out.flash.flashing = true ↔
      (s.seq.state ≠ .open ∧ s.seq.state ≠ .amber) ∨ ∃ i, (s.boom i).state ≠ .up) ∧
    (∀ c, (s.lamp c).lit = true ↔ (s.lamp c).underTest = true ∨ match c with
      | .amber1 | .amber2 => s.seq.state = .amber
      | .redLeft1 | .redLeft2 => s.out.flash.flashing = true ∧ s.out.flash.phase = .one
      | .redRight1 | .redRight2 => s.out.flash.flashing = true ∧ s.out.flash.phase = .two) ∧
    s.out.audible.programme = s.programmeNow ∧
    (s.out.audible.tone ≠ none ↔ s.out.audible.programme ≠ .silent)

/-- The pulse timer runs exactly in OPEN, and a proving pulse in OPEN alone (R141). -/
def PulseFollows (s : State) : Prop :=
  (s.out.pulseTimer ≠ none ↔ s.seq.state = .open) ∧ (s.out.pulse ≠ none → s.seq.state = .open)

/-- The outputs as they take effect over booms `b` (R148): each boom DOWN where its DOWN contact is MADE alone, else LOWERING
with a travel limit, under the order LOWER of the sequencer; the channels PROVEN; the flash clock at the beginning of phase
one; the programme of the sequencer with its first tone; no test, no pulse timer. -/
def OutputsBegun (b : BoomId → Boom) (t : State) : Prop :=
  t.out.driven = true ∧
  (∀ i, let down := (b i).downContact.made && !(b i).upContact.made
    t.boom i = { b i with
      state := if down then .down else .lowering
      order := .lower, orderSince := t.uptime, source := .sequencer
      travelExpiry := if down then none else some (after t.now t.cfg.travelMs)
      pending := none, settleExpiry := none, restMark := none, recoverySince := none, failures := ⟨false, false, false⟩ }) ∧
  (∀ c, (t.lamp c).condition = .proven 0 ∧ (t.lamp c).dark = 0 ∧ (t.lamp c).stray = false ∧ (t.lamp c).underTest = false) ∧
  t.out.flash = ⟨.one, after t.now t.cfg.phaseMs, true⟩ ∧ t.out.pulseTimer = none ∧ t.out.pulse = none ∧
  t.out.lampTest = none ∧ t.out.audible = ⟨t.programmeNow, t.firstTone, false, 0⟩

/-! ## What stands on a track -/

/-- A section lies on a track (R18). -/
def OnTrack (s : State) (n : TrackId) (x : SectionId) : Prop := ∃ e, (s.sect x).place = some e ∧ e.track = n

/-- A section is protecting: an island always, an approach where its toward entry has PROTECTING (R77). -/
def Protects (s : State) (x : SectionId) : Prop :=
  ∃ e, (s.sect x).place = some e ∧ (e.role = .island ∨
    ∃ side, e.role = .approach side ∧ s.cfg.protecting (ConfigImage.mapIndex x side.toward) = true)

/-- A protecting section is DISTURBED or RESTORING (R77). -/
def Withheld (s : State) (x : SectionId) : Prop :=
  Protects s x ∧ ((s.sect x).state = .disturbed ∨ (s.sect x).state = .restoring)

/-- A predicate of TEST is TRUE for a track: the track has a used section, and what the tables of R39 and R83 say of it holds;
DEMAND is the per-track demand of R78. -/
def Answered (s : State) (q : Predicate) (n : TrackId) : Prop :=
  let moves := fun (p : MoveState → Prop) => ∃ k m, s.slot k = some m ∧ m.track = n ∧ p m.state
  let clear := fun (side : Side) => ∀ x e, (s.sect x).place = some e → e.track = n → e.role = .approach side →
    (s.sect x).state = .clear
  (∃ x, OnTrack s n x) ∧ match q with
    | .occupied => ∃ x, OnTrack s n x ∧ ((s.sect x).state = .occupied ∨ (s.sect x).state = .disturbed ∨
        ((s.sect x).state = .restoring ∧ 0 < (s.sect x).count))
    | .demand => moves (fun st => st = .due ∨ st = .crossing) ∨ ∃ x, OnTrack s n x ∧ Withheld s x
    | .crossing => moves (· = .crossing)
    | .arriving => moves (· = .arriving)
    | .standing => moves (· = .standing)
    | .disturbed => ∃ x, OnTrack s n x ∧ ((s.sect x).state = .disturbed ∨ (s.sect x).state = .restoring)
    | .approachAClear => clear .a
    | .approachBClear => clear .b

/-! ## Changes handed to the approach timer -/

/-- The timing fields of a movement after a change handed at a time (R65, R66, R70): those of the record before it, which a new
record has not, where the state stands; else those of the entry into the state. -/
def Timed (s : State) (before : Option Movement) (n : Movement) (t : Time) : Prop :=
  let was := before.map Movement.state
  if was = some n.state then
    n.dueTime = before.bind Movement.dueTime ∧ n.dueSince = before.bind Movement.dueSince ∧
    n.warnedAt = before.bind Movement.warnedAt
  else
    n.dueTime = (if n.state = .arriving then s.firstDueTime n t else none) ∧
    n.dueSince = (if n.state = .due then some t else none) ∧
    n.warnedAt = match n.state with
      | .arriving => none
      | .due => s.seq.redStart
      | .crossing => if was = some .due then before.bind Movement.warnedAt else s.seq.redStart
      | .standing | .leaving => before.bind Movement.warnedAt

/-- A movement after a change handed to the approach timer (R57, R64, R65): the state that its span, its direction and its state
before give it, and the timing fields of that. -/
def Handed (s : State) (c : Change) (before : Option Movement) (n : Movement) : Prop :=
  n.state = s.stateAfter { n with state := (before.map Movement.state).getD n.state } c ∧ Timed s before n c.time

/-- The fault unit after a change in which a movement takes a new state or a passage (R71, R72): LONG-APPROACH is cleared on an
exit from DUE and raised once in each period of it, and SHORT-WARNING is raised on an entry into CROSSING. -/
def State.faultsHanded (s : State) (before : Option Movement) (n : Movement) (t : Time) : FaultUnit :=
  let was := before.map Movement.state
  let x : Subject := .movement n.number
  if was = some .due ∧ n.state = .due then
    if s.overstayed n = true ∧ before.map Movement.longRaised = some false then s.faults.raise s.seconds .longApproach x .minor
    else s.faults
  else
    let u := if was = some .due then s.faults.clear s.seconds .longApproach x else s.faults
    if n.state = .crossing ∧ was ≠ some .crossing ∧ s.shortWarned n t = true then u.raise s.seconds .shortWarning x .major
    else u

/-! ## Conditions -/

/-- Nothing takes the sequencer into FAILED-CLOSED: the cause set is empty, no boom is STOPPED, and the major lamp condition
is as last handed (R115, R116). -/
def State.sound (s : State) : Bool := s.noCause && !s.boomFaulted && s.out.lamps.major == s.out.major

/-- A request of a kind is permitted on a port in the present mode and arrangement, and the part is not held (R172, R175,
R176). A RESET-SECTION of kind DIRECT from the service port is refused besides (R176). -/
def State.permits (s : State) (k : RequestKind) (p : Port) : Bool :=
  !s.mon.held && (k.modes p).contains s.mon.mode && !s.shutOut p

/-- A request on a port changes the contact of no lane: its lane is PRESENT, or it counts no contact (R85). -/
def State.heard (s : State) (p : Port) : Bool := !s.contactChanges p

/-- What a request that has passed the frame check finds (R173, R85, R172): the time has moved on by `dt`, the port has
shifted out zeros, its lane's contact is taken, and the load window is closed by every request of the service port but a
load. -/
def State.asked (s : State) (dt : Nat) (k : RequestKind) (p : Port) (args : List Octet) : State :=
  (((s.advance dt).shiftOut p (List.replicate (args.length + 6) 0)).contactBy p).closeWindowIf p (!k.isLoad)

/-- The state with the reply of a request in its port's buffer (R175, R181). -/
def State.replied (s : State) (p : Port) (tag : Octet) (k : RequestKind) (o : ReplyOutcome) (data : List Octet) : State :=
  s.putReply p (replyFrame tag k.codeOctet o data)

/-! ## Frames -/

/-- The sequencer sets the red start as it goes from the state of `m` to that of `t` (R69). -/
def redStartSet (m t : State) : Bool :=
  (m.seq.state != .redWarning && t.seq.state == .redWarning) ||
  ((m.seq.state == .open || m.seq.state == .amber) && t.seq.state == .failedClosed)

/-- The warned-at that a movement takes as it becomes DUE in an event from `s` to `t` (R65, R70): the red start, and where there
is none the one that is set in the event. -/
def warnedFrom (s t : State) : Option Time :=
  match s.seq.redStart with
  | some r => some r
  | none => if redStartSet s t then t.seq.redStart else none

/-- A movement slot at the end of an event: it stands; where a red start is set, a DUE or CROSSING movement without warned-at
takes it as its warned-at (R70). -/
def SlotFrame (m t : State) (k : SlotId) : Prop :=
  t.slot k = (m.slot k).map fun x =>
    if redStartSet m t && x.demanding && x.warnedAt.isNone then { x with warnedAt := t.seq.redStart } else x

/-- The closure number changes, or the sequencer begins RAISING: the events at which LANE-DISAGREE is cleared (R94). -/
def disagreeCleared (m t : State) : Bool :=
  t.seq.closure != m.seq.closure || (m.seq.state != .raising && t.seq.state == .raising)

/-- The fault unit of an event's own effect, with the LANE-DISAGREE faults cleared where R94 clears them; none is cleared in
STARTING (log 23). -/
def faultsFollowed (m t : State) : FaultUnit :=
  if disagreeCleared m t = true ∧ t.mon.mode ≠ .starting then
    (m.faults.clear t.seconds .laneDisagree (.lane .a)).clear t.seconds .laneDisagree (.lane .b)
  else m.faults

/-- The fault unit at the end of an event: that of the event's own effect, with the LANE-DISAGREE faults cleared where R94 clears
them, and with the CROSSING-STATUS of the event where one is queued (R163). So every record stands but those of LANE-DISAGREE, and
these too, with the cleared order and the overflow record, but where they are cleared; masks, sticky flags and the id counter
are as they were. -/
def FaultFrame (m t : State) : Prop :=
  (t.faults = faultsFollowed m t ∨ t.faults = (faultsFollowed m t).queueStatus (t.statusNotice none)) ∧
  t.faults.masks = m.faults.masks ∧ t.faults.sticky = m.faults.sticky ∧ t.faults.idCounter = m.faults.idCounter ∧
  (∀ (p : Fin 31) (r : FaultRecord), m.faults.table[p] = some r → r.kind ≠ .laneDisagree → t.faults.table[p] = some r) ∧
  (disagreeCleared m t = false → t.faults.table = m.faults.table ∧ t.faults.clearedOrder = m.faults.clearedOrder ∧
    t.faults.overflow = m.faults.overflow)

/-- The consents are dropped at the end of an event (R92): demand has appeared, the sequencer has left CLOSED, or the closure
number has changed. -/
def consentsDropped (m t : State) : Bool :=
  (!m.approach.demand && t.approach.demand) || (m.seq.state == .closed && t.seq.state != .closed) ||
  t.seq.closure != m.seq.closure

/-- The stances at the end of an event: the lanes' consents stand or are dropped (R92), the disagreement supervision goes on,
begins or ends (R94), and the rest is as it was. -/
def StanceFrame (m t : State) : Prop :=
  (∀ l, t.lane l = if consentsDropped m t then { m.lane l with consent := none } else m.lane l) ∧
  t.stances.signallerHold = m.stances.signallerHold ∧ t.stances.serviceHold = m.stances.serviceHold ∧
  t.stances.permit = m.stances.permit ∧ t.stances.maintenance = m.stances.maintenance ∧
  (t.stances.disagreement = m.stances.disagreement ∨
    t.stances.disagreement = if t.disagreeing then some (m.stances.disagreement.getD ⟨t.now, false⟩) else none)

/-- A boom at the end of an event: it may have taken an order (R128), and its contacts, its rest mark and its failure kinds
are as they were. -/
def BoomFrame (b c : Boom) : Prop :=
  c.upContact = b.upContact ∧ c.downContact = b.downContact ∧ c.conflictSince = b.conflictSince ∧
  c.restMark = b.restMark ∧ c.failures = b.failures ∧ (c.state = .stopped ↔ b.state = .stopped)

/-- A channel at the end of an event: its drive may have changed, and what has been judged of it is as it was. -/
def LampFrame (l m : Lamp) : Prop :=
  m.condition = l.condition ∧ m.stray = l.stray ∧ m.dark = l.dark ∧ m.underTest = l.underTest

/-- The outputs at the end of an event. -/
def OutFrame (o q : Outputs) : Prop :=
  q.driven = o.driven ∧ q.conditionedFrom = o.conditionedFrom ∧ (∀ i, BoomFrame (o.booms.get i) (q.booms.get i)) ∧
  (∀ c, LampFrame (o.lamps.get c) (q.lamps.get c)) ∧ q.lampTest = o.lampTest ∧
  q.audible.openCircuit = o.audible.openCircuit ∧ q.audible.coilCount = o.audible.coilCount

/-- A port record at the end of an event: its line and its pulse follow R180, and the rest is as it was. -/
def PortFrame (r q : PortRecord) : Prop := q.reply = r.reply ∧ q.mode = r.mode ∧ q.shifted = r.shifted

/-- What the end of an event leaves alone, `m` being the state that the event's own effect has left: time, heads, sections,
the store, the monitor, the waiting commands, the movement number counter, and what the frames above say of movements, stances,
outputs, faults and ports. What it may change is what the blocks hand to one another inside the event: the sequencer's record,
demand, the raise blocker and the traffic condition as handed, orders and drives, the generation number, a CROSSING-STATUS,
and the attention lines; and, exactly where the frames say so, consents, the disagreement supervision and its faults, and
warned-at. -/
def EventFrame (m t : State) : Prop :=
  t.uptime = m.uptime ∧ t.heads = m.heads ∧ t.sections = m.sections ∧ t.store = m.store ∧ t.mon = m.mon ∧
  t.pending = m.pending ∧ t.tracker.counter = m.tracker.counter ∧ (∀ k, SlotFrame m t k) ∧
  StanceFrame m t ∧ OutFrame m.out t.out ∧ FaultFrame m t ∧
  t.ports.window = m.ports.window ∧ (∀ p, PortFrame (m.port p) (t.port p))

/-- A command answers a next state, and it is the state `m` of the command's own effect but for what blocks hand to one
another at the end of the event. -/
def Answers (c : Instr) (s m : State) : Prop := ∃ t, exec c s = .next t ∧ EventFrame m t

/-- A request on a port answers `m`, and blocks have nothing to hand to one another: where it changes the contact of no lane, the
state is `m` itself; a contact that changes is handed round as at the end of any event (R85). -/
def AnswersAlone (p : Port) (c : Instr) (s m : State) : Prop := Answers c s m ∧ (s.heard p = true → exec c s = .next m)

/-- As `Answers`, and a boom that the sequencer governs stands as the effect has left it; where the sequencer makes a
transition in the event, the boom takes the order of the new state (R128). -/
def AnswersBoom (c : Instr) (s m : State) (i : BoomId) : Prop :=
  ∃ t, exec c s = .next t ∧ EventFrame m t ∧
    ((m.boom i).source = .sequencer → t.boom i = if t.seq.state = m.seq.state then m.boom i
      else (m.boom i).takeOrder (t.seq.state.order i) t.uptime t.cfg.travelMs)

/-! ## Records -/

/-- What a lit phase or a proving pulse makes of a channel (R138, R139): out of its window three times running a PROVEN channel
is FAILED, within it three times running a FAILED one is PROVEN. -/
def LitJudged (l m : Lamp) (within : Bool) : Prop :=
  m.stray = l.stray ∧ m.dark = l.dark ∧
  match l.condition, within with
  | .proven _, true => m.condition = .proven 0
  | .proven n, false => m.condition = if n + 1 < 3 then .proven (n + 1) else .failed 0
  | .failed _, false => m.condition = .failed 0
  | .failed n, true => m.condition = if n + 1 < 3 then .failed (n + 1) else .proven 0

/-- What a dark phase makes of a channel (R140): three phases running on the other side of the stray level change its stray
mark. -/
def DarkJudged (l m : Lamp) (above : Bool) : Prop :=
  m.condition = l.condition ∧
  if above = l.stray then m.dark = 0 ∧ m.stray = l.stray
  else if l.dark + 1 < 3 then m.dark = l.dark + 1 ∧ m.stray = l.stray
  else m.dark = 0 ∧ m.stray = !l.stray

/-- The stray mark, the condition and the dark count of a channel are as they were. -/
def Unjudged (l m : Lamp) : Prop := m.condition = l.condition ∧ m.stray = l.stray ∧ m.dark = l.dark

/-! ## The fault table -/

/-- A fault id drawn by a unit (R152): one from 1 to 255 that no record of it holds, the first that the id counter comes to as it
counts on, 255 being followed by 1. -/
def Drawn (u : FaultUnit) (n : Nat) : Prop :=
  1 ≤ n ∧ n ≤ 255 ∧ u.idInUse n = false ∧ (1 ≤ u.idCounter → u.idCounter ≤ 255 →
    ∃ j, n = (u.idCounter + j - 1) % 255 + 1 ∧ ∀ i, i < j → u.idInUse ((u.idCounter + i - 1) % 255 + 1) = true)

/-- The value after a fault id, 255 being followed by 1 (R152). -/
def idAfter (n : Nat) : Nat := if n = 255 then 1 else n + 1

/-- A unit with notices added at the tail of its queue, one after another (R162, R165). -/
def FaultUnit.told (u : FaultUnit) (l : List Notice) : FaultUnit := l.foldl FaultUnit.append u

/-- The notice about a fault of a class and a severity: none where the fault is MINOR and the class is masked (R160). -/
def FaultUnit.worded (u : FaultUnit) (c : FaultClass) (sev : Severity) (n : Notice) : List Notice :=
  if sev = .minor ∧ c.inSet u.masks = true then [] else [n]

/-- A raise, with the severity of the kind (R151), or a clear of a fault. -/
inductive FaultChange where
  | raised (kind : FaultKind) (subject : Subject)
  | cleared (kind : FaultKind) (subject : Subject)
deriving DecidableEq, Repr

/-- A unit after raises and clears at a time, one after another (R153 to R156). -/
def FaultUnit.changed (u : FaultUnit) (t : BitVec 32) (l : List FaultChange) : FaultUnit :=
  l.foldl (fun u e => match e with
    | .raised k x => u.raise t k x k.severity
    | .cleared k x => u.clear t k x) u

/-- A discarded movement clears its faults (R60, R80). -/
def discardFaults (s : State) (k : SlotId) : List FaultChange :=
  match s.slot k with
  | some m => [.cleared .shortWarning (.movement m.number), .cleared .longApproach (.movement m.number)]
  | none => []

/-- A section that is used raises SECTION-DISTURBED, and the faults of one that is not are cleared (R38, R49). -/
def disturbFaults (x : SectionId) (used : Bool) : List FaultChange :=
  if used then [.raised .sectionDisturbed (.sect x)]
  else [.cleared .sectionDisturbed (.sect x), .cleared .sectionListFull (.sect x), .cleared .movementTableFull (.sect x)]

/-- The raises and clears of a change of the topology, in the order of log 7: every movement is discarded, and each section used in
the new copy is disturbed (R38, R60). -/
def topologyFaults (s : State) (new : ConfigImage) : List FaultChange :=
  (List.finRange 16).flatMap (discardFaults s) ++
  (List.finRange 10).flatMap fun x => disturbFaults x (new.sections[x].used != 0)

/-- A lane is lost to a new lane contact time (R86): it takes part and did so before, it is PRESENT, and its last contact is older
than the new time at `now`. -/
def lostToContactTime (s : State) (new : ConfigImage) (now : Time) (l : Lane) : Bool :=
  (l == .a || (s.cfg.dual && new.dual)) && s.cfg.laneContactMs != new.laneContactMs &&
  (s.lane l).contact == .present && (s.lane l).lastContact.any fun e => new.laneContactMs < since now e

/-- The raises and clears of an accepted commit after those of its movements and sections, in the order of log 7: a change to
SINGLE clears those of Lane B (R99), each lane lost to a new contact time raises LANE-LOST (R86), and CONFIG-INVALID is cleared
(R187). -/
def laneAndConfigFaults (s : State) (new : ConfigImage) (now : Time) : List FaultChange :=
  (if s.cfg.dual && !new.dual then [.cleared .laneLost (.lane .b), .cleared .laneDisagree (.lane .b)] else []) ++
  (([Lane.a, .b].filter (lostToContactTime s new now)).map fun l => .raised .laneLost (.lane l)) ++
  [.cleared .configInvalid .configuration]

/-! ## The commit checks -/

/-- A number lies outside a range. -/
def Outside (n lo hi : Nat) : Prop := n < lo ∨ hi < n

/-- An entry of SECTIONS describes a section of the installation. -/
def UsedIn (c : ConfigImage) (x : SectionId) : Prop := c.sections[x].used ≠ 0

/-- The used sections of a track, by the track octet of their entries. -/
def trackSections (c : ConfigImage) (t : Octet) : List SectionId :=
  (List.finRange 10).filter fun x => c.sections[x].used != 0 && c.sections[x].track == t

/-- The sections of a track form one chain from the A end to the B end, its approaches on the sides they name (R19): each ends at
the head where the next begins, none ends where the first begins, and approaches of side A stand before the one island, those of
side B after it. -/
def TrackChain (c : ConfigImage) (t : Octet) : Prop :=
  ∃ before island after, (before ++ island :: after).Perm (trackSections c t) ∧
    (∀ front x y back, before ++ island :: after = front ++ x :: y :: back → c.sections[x].bHead = c.sections[y].aHead) ∧
    (∀ x back, before ++ island :: after = x :: back → ∀ y, y ∈ trackSections c t →
      c.sections[y].bHead ≠ c.sections[x].aHead) ∧
    c.sections[island].role = 0 ∧ (∀ x, x ∈ before → c.sections[x].role ≠ 0 ∧ c.sections[x].side = 0) ∧
    ∀ x, x ∈ after → c.sections[x].role ≠ 0 ∧ c.sections[x].side = 1

/-- The profile of the toward entry of an approach (R62, R63). -/
def profileToward (c : ConfigImage) (x : SectionId) : ProfileEntry :=
  c.profileAt (ConfigImage.mapIndex x (if c.sections[x].side = 0 then .ab else .ba))

/-- A tone duration is out of range, or no multiple of 10 ms (R125). -/
def DurationWrong (d : Half) : Prop := Outside d.toNat 100 2000 ∨ d.toNat % 10 ≠ 0

/-- The current windows of a channel are out of range, or its pulse window is: of a red a window, of an amber 0 (R125). -/
def ChannelWrong (e : OutputsEntry) (red : Bool) : Prop :=
  Outside e.w0.toNat 20 1500 ∨ e.w1.toNat ≤ e.w0.toNat ∨ 2000 < e.w1.toNat ∨
  if red then Outside e.w2.toNat 5 400 ∨ e.w3.toNat ≤ e.w2.toNat ∨ 500 < e.w3.toNat else e.w2 ≠ 0 ∨ e.w3 ≠ 0

/-- A configuration fails the commit check of a number, each as the table of R186 has it. -/
def CheckFails (c : ConfigImage) : Nat → Prop
  | 1 => ∃ x : SectionId, 1 < c.sections[x].used.toNat ∨ (c.sections[x].used = 1 ∧
      (Outside c.sections[x].track.toNat 1 4 ∨ 1 < c.sections[x].role.toNat ∨ 1 < c.sections[x].side.toNat ∨
        11 < c.sections[x].aHead.toNat ∨ 11 < c.sections[x].bHead.toNat))
  | 2 => (∀ x, ¬UsedIn c x) ∨ ∃ x, UsedIn c x ∧
      (((trackSections c c.sections[x].track).filter fun y => c.sections[y].role == 0).length ≠ 1 ∨
        4 < (trackSections c c.sections[x].track).length)
  | 3 => ∃ x, UsedIn c x ∧ (c.sections[x].aHead = c.sections[x].bHead ∨ ¬TrackChain c c.sections[x].track)
  | 4 => ∃ x y, UsedIn c x ∧ UsedIn c y ∧
      ((x ≠ y ∧ (c.sections[x].aHead = c.sections[y].aHead ∨ c.sections[x].bHead = c.sections[y].bHead)) ∨
        (c.sections[x].bHead = c.sections[y].aHead ∧ c.sections[x].track ≠ c.sections[y].track))
  | 5 => ∃ h : HeadId, Outside c.heads[h].spacing.toNat 100 500 ∨ Outside c.heads[h].debounce.toNat 2 50 ∨
      Outside c.heads[h].stuckLimit.toNat 5 100 ∨ 3 < c.heads[h].polarities.toNat
  | 6 => ∃ i : Fin 21, 15 < c.map[i].profile.toNat ∨ 15 < c.map[i].attributes.toNat
  | 7 => ∃ (x : SectionId) (d : Dir), UsedIn c x ∧ c.sections[x].role = 0 ∧
      Outside (c.profileAt (ConfigImage.mapIndex x d)).minimumWarning.toNat 15 90
  | 8 => ∃ x, UsedIn c x ∧ c.sections[x].role ≠ 0 ∧
      (Outside (profileToward c x).length.toNat 50 5000 ∨ Outside (profileToward c x).minimumWarning.toNat 15 90 ∨
        Outside (profileToward c x).maximumApproach.toNat 30 600 ∨ 60 < (profileToward c x).raiseMargin.toNat ∨
        300 < (profileToward c x).haltGrace.toNat ∨
        (11 < (profileToward c x).advanceHead.toNat ∧ (profileToward c x).advanceHead ≠ 0xFF))
  | 9 => ∃ x, UsedIn c x ∧ c.sections[x].role ≠ 0 ∧ (profileToward c x).advanceHead ≠ 0xFF ∧
      ((∃ y, UsedIn c y ∧ (c.sections[y].aHead = (profileToward c x).advanceHead ∨
          c.sections[y].bHead = (profileToward c x).advanceHead)) ∨
        Outside (profileToward c x).advanceDistance.toNat 20 5000 ∨
        (profileToward c x).length.toNat ≤ (profileToward c x).advanceDistance.toNat)
  | 10 => Outside c.outputs[0].w0.toNat 6 20 ∨ Outside c.outputs[0].w1.toNat 300 2000 ∨
      Outside c.outputs[0].w2.toNat 300 2000 ∨ Outside c.outputs[0].w3.toNat 10 500 ∨
      DurationWrong c.outputs[1].w0 ∨ DurationWrong c.outputs[1].w1 ∨ DurationWrong c.outputs[1].w2 ∨
      DurationWrong c.outputs[1].w3 ∨ ChannelWrong c.outputs[2] false ∨ ChannelWrong c.outputs[3] true ∨
      ChannelWrong c.outputs[4] true ∨ ChannelWrong c.outputs[5] false ∨ ChannelWrong c.outputs[6] true ∨
      ChannelWrong c.outputs[7] true
  | 11 => Outside c.sequence.amber.toNat 2 5 ∨ Outside c.sequence.boomDelay.toNat 4 10 ∨
      Outside c.sequence.exitWait.toNat 4 20 ∨ Outside c.sequence.minimumClosed.toNat 2 30 ∨
      Outside c.sequence.flashPeriod.toNat 10 16 ∨ Outside c.sequence.laneContact.toNat 200 5000 ∨
      Outside c.sequence.couplingGap.toNat 5 100 ∨ 1 < c.sequence.arrangement.toNat ∨ 1 < c.sequence.compact.toNat ∨
      511 < c.sequence.defaultMasks.toNat
  | _ => False

/-! ## Layouts (R181) -/

/-- A number of `k` octets, most significant octet first (R181). -/
def big (k n : Nat) : List Octet := (List.range k).reverse.map fun i => BitVec.ofNat 8 (n / 256 ^ i)

/-- A crossing-clock time in four octets, 0 while absent (R181). -/
def bigTime (t : Option Time) : List Octet := big 4 ((t.map BitVec.toNat).getD 0)

/-- The code of a value: its place, from 0, in the list of the values (R181). A list that begins with `none` gives an absent one
the code 0 and the others the codes from 1. -/
def coded {V : Type} [BEq V] (values : List V) (v : V) : Octet := BitVec.ofNat 8 (values.idxOf v)

/-- A set of flags, from bit 0 in the order listed (R181). -/
def flagged (bits : List Bool) : Octet := BitVec.ofNat 8 ((bits.mapIdx fun i b => if b then 2 ^ i else 0).sum)

/-- A reference to a head, FF where it is absent (R181). -/
def headRef (h : Option HeadId) : List Octet := big 1 ((h.map Fin.val).getD 0xFF)

/-- The sequencer states in the order of R102. -/
def seqStates : List SeqState :=
  [.open, .amber, .redWarning, .entryLowering, .exitWait, .exitLowering, .closed, .raising, .reclosing, .failedClosed]

/-- The operating modes in the order of their codes (R181). -/
def modeCodes : List Mode := [.starting, .unconfigured, .normal, .maintenance]

/-- The supply states in the order of their codes (R181). -/
def supplyCodes : List SupplyState := [.good, .warn, .low]

/-- The kinds of reset behind the absent one, in the order of their codes (R181). -/
def resetCodes : List (Option ResetKind) := [none, some .powerOn, some .supplyReset, some .restart]

/-- The outcomes in the order of the outcome table (00_scope.md). -/
def outcomes : List ReplyOutcome :=
  [.done, .frameError, .refusedPort, .refusedMode, .refusedRange, .refusedState, .refusedStale, .busy]

/-- The kinds of fault with their classes and severities, in the order of R151; RED-LAMP-OUT takes the severity that the raising
block names. -/
def faultKinds : List (FaultKind × FaultClass × Option Severity) := [
  (.sensorStuck, .detection, some .major), (.sensorImbalance, .detection, some .major),
  (.sectionDisturbed, .sect, some .major), (.movementTableFull, .tracking, some .major),
  (.sectionListFull, .tracking, some .major), (.shortWarning, .tracking, some .major),
  (.longApproach, .tracking, some .minor), (.redLampOut, .lamp, none), (.amberLampOut, .lamp, some .minor),
  (.lampStrayCurrent, .lamp, some .major), (.boomTravelTimeout, .boom, some .major),
  (.boomContactConflict, .boom, some .major), (.boomDisplaced, .boom, some .major),
  (.audibleOpenCircuit, .audible, some .minor), (.laneLost, .lane, some .major), (.laneDisagree, .lane, some .minor),
  (.supplyWarn, .supply, some .minor), (.supplyLow, .supply, some .major), (.partRestarted, .supply, some .minor),
  (.configInvalid, .config, some .critical), (.storeWriteFailed, .config, some .major),
  (.tableOverflow, .config, some .major)]

/-- The classes of fault in the order of R150. -/
def faultClasses : List FaultClass := [.detection, .sect, .tracking, .lamp, .boom, .audible, .lane, .supply, .config]

/-- A fault kind in one octet, 1 to 22 in the order of R151 (R181). -/
def kindLayout (k : FaultKind) : Octet := coded (none :: faultKinds.map fun e => some e.1) (some k)

/-- A subject in two octets, a type and a value (R181). -/
def subjectLayout : Subject → List Octet
  | .head h => [0] ++ big 1 h.val
  | .sect x => [1] ++ big 1 x.val
  | .movement n => [2] ++ big 1 n
  | .boom i => [3, coded [.entry1, .exit1, .entry2, .exit2] i]
  | .lamp c => [4, coded [.amber1, .redLeft1, .redRight1, .amber2, .redLeft2, .redRight2] c]
  | .lane l => [5, coded [.a, .b] l]
  | .supply => [6, 0]
  | .audible => [7, 0]
  | .configuration => [8, 0]
  | .faultTable => [9, 0]

/-- The notices (R181): the kind of the notice stands in the upper four bits of the first octet. -/
def noticeLayout : Notice → List Octet
  | .faultRaised id k x sev t =>
    [0x10] ++ big 1 id ++ [kindLayout k] ++ subjectLayout x ++ [coded [.minor, .major, .critical] sev] ++ big 4 t.toNat
  | .faultCleared id t => [0x20] ++ big 1 id ++ big 4 t.toNat
  | .crossingStatus n =>
    [if n.cause = none then 0x30 else 0x40, coded seqStates n.state] ++ big 2 n.closure.toNat ++
    [coded modeCodes n.mode, coded supplyCodes n.supply, flagged [n.proven], n.demand ++ n.occupied] ++
    big 4 n.seconds.toNat ++
    match n.cause with
    | some (kind, previous) => [coded resetCodes (some kind), coded resetCodes previous]
    | none => []
  | .movementPassed number track dir axles speed t =>
    let v := BitVec.ofNat 9 (speed.getD 0)
    [(5#4 ++ BitVec.ofNat 2 track.val ++ BitVec.ofBool (dir == .ba) ++ v.extractLsb' 8 1 : Octet), v.extractLsb' 0 8] ++
    big 1 number ++ big 1 axles ++ big 4 t.toNat
  | .restored x track k => [0x60] ++ big 1 x.val ++ big 1 (track.val + 1) ++ [coded [.sweep, .direct] k]

/-- A passage that may be absent: its head and its time (R181). -/
def passageLayout (p : Option HeadTime) : List Octet := headRef (p.map HeadTime.head) ++ bigTime (p.map HeadTime.time)

/-- The item of a movement slot (R40, R61, R181); an EMPTY one is 0 throughout, and an unused span entry has no section and no
axles (log 21). -/
def movementLayout : Option Movement → List Octet
  | none => List.replicate 46 0
  | some m =>
    [1] ++ big 1 m.number ++
    [(BitVec.ofNat 4 (m.track.val + 1) ++ BitVec.ofNat 4 (coded [.ab, .ba] m.dir).toNat : Octet),
      coded [.arriving, .due, .standing, .crossing, .leaving] m.state, coded [.outer, .fromDisturbed, .reversedHere] m.origin,
      flagged [m.crossed, m.reversed, m.dueTime.isSome, m.warnedAt.isSome, m.dueSince.isSome, m.rear.isSome,
        m.advance.isSome]] ++
    big 2 (m.span.map SpanEntry.axles).sum ++ big 2 (m.entrySpeed.getD 0) ++ big 1 m.crossingAxles ++ big 1 m.span.length ++
    ((List.range 4).flatMap fun i => match m.span[i]? with
      | some e => big 1 e.sect.val ++ big 1 e.axles
      | none => [0xFF, 0]) ++
    bigTime m.dueTime ++ bigTime m.warnedAt ++ bigTime m.dueSince ++ big 4 m.lastAxle.toNat ++
    passageLayout m.rear ++ passageLayout m.advance

/-- The item of a section (R18, R39, R181); the track of an unused one is 0 (log 21). -/
def sectionLayout (s : State) (x : SectionId) : List Octet :=
  let r := s.sect x
  [coded [none, some .island, some (.approach .a), some (.approach .b)] (r.place.map Place.role)] ++
  big 1 ((r.place.map fun e => e.track.val + 1).getD 0) ++ headRef (r.place.map Place.aHead) ++
  headRef (r.place.map Place.bHead) ++ big 1 r.count ++
  [coded [.clear, .occupied, .disturbed, .restoring] r.state,
    coded [none, some .start, some .headFailed, some .underflow, some .overflow, some .listFull, some .tableFull, some .config]
      r.cause,
    if r.restore = none then 0 else coded [none, some .a, some .b] r.sweepEnd + 1] ++
  big 1 r.list.length ++
  (List.range 4).flatMap fun i => big 1 (((r.list[i]?.bind fun k => s.slot k).map Movement.number).getD 0)

/-- A sensor of a head: its state and the time of its last change (R4, R181). -/
def sensorLayout (v : Sensor) : List Octet := [coded [true, false] v.occupied] ++ big 4 v.changed.toNat

/-- The last passage of a head, 0 while absent (R4, R181). -/
def lastLayout : Option LastPassage → List Octet
  | some p => [coded [.ab, .ba] p.dir] ++ big 2 (p.speed.getD 0) ++ big 4 p.time.toNat
  | none => List.replicate 7 0

/-- The item of a head (R4, R17, R181). -/
def headLayout (r : Head) : List Octet :=
  let sideNibble := fun x : Option Side => BitVec.ofNat 4 (coded [none, some .a, some .b] x).toNat
  [coded [none, some .sensorStuck, some .sensorImbalance] r.failure,
    coded [.settling, .quiet, .entering, .spanned, .leaving] r.decoder,
    (sideNibble r.entrySide ++ sideNibble r.heldSide : Octet)] ++
  big 1 r.partials ++ sensorLayout r.sensorA ++ sensorLayout r.sensorB ++ bigTime (r.capture.map FineTime.ms) ++
  big 2 (r.speed.getD 0) ++ bigTime r.quietSince ++
  [flagged [r.capture.isSome, r.quietSince.isSome, r.lastPassage.isSome]] ++ lastLayout r.lastPassage

/-- The states of a fault record behind EMPTY, in the order of their codes (R181). -/
def faultStateCodes : List (Option FaultState) := [none, some .active, some .acknowledged, some .cleared]

/-- The item of a position of the fault table, 31 being the overflow position (R150, R168, R181); an EMPTY one is 0 throughout
(log 21). -/
def faultLayout (u : FaultUnit) (i : Nat) : List Octet :=
  match if i < 31 then (u.table[i]?).join else u.overflow with
  | none => List.replicate 19 0
  | some r =>
    [coded faultStateCodes (some r.state)] ++ big 1 r.id ++
    [kindLayout r.kind, coded faultClasses r.kind.cls, coded [.minor, .major, .critical] r.severity] ++
    subjectLayout r.subject ++ big 4 r.firstSeen.toNat ++ big 4 r.lastSeen.toNat ++ big 1 r.occurrences ++
    [flagged [r.carriedOver], coded resetCodes r.detail] ++
    big 1 (if i ∈ u.clearedOrder.map Fin.val then (u.clearedOrder.map Fin.val).idxOf i + 1 else 0)

/-- A boom in STATUS: its state, its order and source, and its failure kinds (R149, R181). -/
def boomLayout (b : Boom) : List Octet :=
  [coded [.up, .lowering, .down, .raising, .settling, .stopped] b.state,
    flagged [b.order == .lower, b.source == .test],
    flagged [b.failures.timeout, b.failures.conflict, b.failures.displaced]]

/-- A lamp channel in STATUS: FAILED, stray, under test (R149, R181). -/
def lampLayout (l : Lamp) : Octet :=
  flagged [match l.condition with | .failed _ => true | .proven _ => false, l.stray, l.underTest]

/-- The data of a STATUS reply, group by group (R124, R101, R149, R163, R169, R181); the numbers of records count the overflow
record among them (log 34), and an absent agreement has the section FF (log 21). -/
def statusLayout (s : State) : List Octet :=
  let contact := fun l : Lane => coded [.notHeard, .present, .lost] (s.lane l).contact
  let consented := fun l : Lane => big 2 (((s.lane l).consent.map fun g => g.closure.toNat).getD 0)
  let agreed := fun l : Lane => big 1 (((s.lane l).agreement.map fun g => g.sect.val).getD 0xFF)
  let number := fun p : FaultRecord → Bool =>
    big 1 ((s.faults.table.toList ++ [s.faults.overflow]).countP fun o => o.any p)
  let standing := fun (v : Severity) (r : FaultRecord) => r.severity == v && (r.state == .active || r.state == .acknowledged)
  let part := [coded modeCodes s.mon.mode, coded supplyCodes s.mon.supply, coded resetCodes (some s.mon.resetKind),
      coded resetCodes s.mon.previousKind] ++
    big 4 s.now.toNat ++ big 4 s.seconds.toNat ++ big 2 s.tracker.generation.toNat
  let sequencer := [coded seqStates s.seq.state] ++ big 2 s.seq.closure.toNat ++
    [flagged [s.seq.proven, s.seq.redStart.isSome, s.seq.minClosed == some .elapsed, s.raiseOtherwise,
        s.raiseOtherwise && s.consentComplete, s.seq.secondTrain.isSome],
      flagged [s.seq.causes.boom, s.seq.causes.lamp, s.seq.causes.start, s.seq.causes.config]] ++
    bigTime s.seq.redStart
  let stances := [contact .a, contact .b,
      flagged [s.stances.holdOf .laneA, s.stances.holdOf .laneB, s.stances.holdOf .signaller, s.stances.holdOf .service,
        s.stances.combinedHold, s.consentComplete, s.stances.permit, s.stances.maintenance],
      flagged [(s.lane .a).consent.isSome, (s.lane .b).consent.isSome, (s.lane .a).agreement.isSome,
        (s.lane .b).agreement.isSome]] ++
    consented .a ++ consented .b ++ agreed .a ++ agreed .b
  let outputs := boomLayout (s.boom .entry1) ++ boomLayout (s.boom .exit1) ++ boomLayout (s.boom .entry2) ++
    boomLayout (s.boom .exit2) ++
    [lampLayout (s.lamp .amber1), lampLayout (s.lamp .redLeft1), lampLayout (s.lamp .redRight1), lampLayout (s.lamp .amber2),
      lampLayout (s.lamp .redLeft2), lampLayout (s.lamp .redRight2),
      flagged [s.out.lampTest.isSome, s.out.major, s.out.audible.openCircuit],
      coded [.silent, .warning, .secondTrain] s.out.audible.programme]
  let tracks := [flagged ((List.finRange 4).map (s.answer .occupied) ++ (List.finRange 4).map (s.answer .demand))]
  let faults := number (fun r => r.state == .active) ++ number (fun r => r.state == .acknowledged) ++
    number (fun r => r.state == .cleared) ++ number (standing .major) ++ number (standing .critical) ++
    [coded faultStateCodes (s.faults.overflow.map FaultRecord.state)] ++ big 2 s.faults.masks.toNat ++
    big 2 s.faults.sticky.toNat
  let notices := big 1 s.faults.queue.length ++ [flagged [s.faults.queue.any Notice.isStatus]] ++
    big 1 s.faults.overflowCount
  part ++ sequencer ++ stances ++ outputs ++ tracks ++ faults ++ notices

/-- An entry of a table of a configuration, its fields in order (R181). -/
def entryLayout (c : ConfigImage) (t : TableId) (i : Nat) : List Octet :=
  let h := fun n : Half => big 2 n.toNat
  match t with
  | .sections => (c.sections[i]?.map fun e => [e.used, e.track, e.role, e.side, e.aHead, e.bHead]).getD []
  | .map => (c.map[i]?.map fun e => [e.profile, e.attributes]).getD []
  | .profiles => (c.profiles[i]?.map fun e => h e.length ++ [e.advanceHead] ++ h e.advanceDistance ++ [e.minimumWarning] ++
      h e.maximumApproach ++ [e.raiseMargin] ++ h e.haltGrace).getD []
  | .heads => (c.heads[i]?.map fun e => h e.spacing ++ [e.debounce, e.polarities, e.stuckLimit]).getD []
  | .outputs => (c.outputs[i]?.map fun e => h e.w0 ++ h e.w1 ++ h e.w2 ++ h e.w3).getD []
  | .sequence =>
    let e := c.sequence
    [e.amber, e.boomDelay, e.exitWait, e.minimumClosed, e.flashPeriod] ++ h e.laneContact ++
      [e.couplingGap, e.arrangement, e.compact] ++ h e.defaultMasks

/-- The items of a window of a collection, from the first to the last (R177). -/
def windowed (first last : Octet) (item : Nat → List Octet) : List Octet :=
  (List.range' first.toNat (last.toNat + 1 - first.toNat)).flatMap item

/-- One octet into the check register, bit by bit from the most significant, under the generator x¹⁶ + x¹² + x⁵ + 1 (R174). -/
def checkOctet (r : Half) (o : Octet) : Half :=
  (List.range 8).foldl (fun r i => (r <<< 1) ^^^ if r.getLsbD 15 = o.getLsbD (7 - i) then 0 else 0x1021) r

/-- The check value of the octets of a frame, the register starting at FFFF (R174). -/
def checkValue (l : List Octet) : Half := l.foldl checkOctet 0xFFFF

/-- The body of a frame with its length before it and its check value behind it (R174, R181). -/
def framed (body : List Octet) : List Octet :=
  let l := big 2 body.length ++ body
  l ++ big 2 (checkValue l).toNat

/-- The permission table (R175, R176): a request, its code, its number of argument octets (none where it depends on the entries
it carries), and the modes in which Lane A and Lane B, the signaller and the service port may make it. -/
def permissionTable : List (RequestKind × Nat × Option Nat × List Mode × List Mode × List Mode) :=
  let u : Mode := .unconfigured
  let n : Mode := .normal
  let m : Mode := .maintenance
  let every : List Mode := [.starting, u, n, m]
  [(.status, 1, some 0, every, every, every), (.poll, 2, some 0, [], [u, n, m], []),
    (.test, 3, some 1, [n, m], [n, m], [u, n, m]), (.readMovements, 4, some 2, [n, m], [n, m], [u, n, m]),
    (.readSections, 5, some 0, [n, m], [n, m], [u, n, m]), (.readHeads, 6, some 0, [n, m], [n, m], [u, n, m]),
    (.readFaults, 7, some 2, [n, m], [n, m], [u, n, m]), (.setAttention, 8, some 1, [n, m], [n, m], [n, m]),
    (.hold, 10, some 0, [n, m], [n, m], [n, m]), (.release, 11, some 0, [n, m], [n, m], [n, m]),
    (.consent, 12, some 2, [n], [], []), (.agreeReset, 13, some 1, [n, m], [], []), (.depart, 14, some 1, [n, m], [n, m], []),
    (.reopenStanding, 15, some 1, [m], [n, m], []), (.resetSection, 16, some 2, [], [n, m], [m]),
    (.ackFault, 17, some 1, [], [n, m], []), (.permitMaintenance, 18, some 0, [], [n, m], []),
    (.withdrawPermit, 19, some 0, [], [n, m], []), (.enterMaintenance, 20, some 0, [], [], [n]),
    (.leaveMaintenance, 21, some 0, [], [], [m]), (.boomTest, 22, some 2, [], [], [m]), (.lampTest, 23, some 1, [], [], [m]),
    (.setMasks, 24, some 2, [], [], [m]), (.restart, 25, some 0, [], [], [m]), (.loadWindow, 30, some 3, [], [], [u, m]),
    (.loadData, 31, none, [], [], [u, m]), (.loadContinue, 32, none, [], [], [u, m]),
    (.readWindow, 33, some 4, [], [], [u, n, m]), (.commit, 34, some 0, [], [], [u, m])]

/-! ## Steps that change the whole -/

/-- The command at the front of the queue is a COMMIT that is accepted and changes the topology (R38, R186, R187), by its row or
in the octets of a frame that passes the frame check (log 19). -/
def TopologyCommitted (s : State) : Prop :=
  ∃ (dt : Nat) (p : Port) (rest : List Instr),
    ((∃ tag, s.pending = .commit dt p tag :: rest) ∨
      (∃ l f, s.pending = .requestFrameFailed dt p l :: rest ∧ checkFrame l = .ok f ∧ f.kind = .commit)) ∧
    s.permits .commit p = true ∧ s.store.busy = false ∧ s.store.staging.failedCheck = none ∧
    (∀ c, s.store.active = some c → c.sections ≠ s.store.staging.sections ∨ c.heads ≠ s.store.staging.heads)

/-- A step resets the part: a power-on, a supply reset that begins, or a restart that is taken. -/
def Resets (s t : State) : Prop :=
  (∃ v rest, s.pending = .powerOn v :: rest) ∨ (s.mon.held = false ∧ t.mon.held = true) ∨
  (s.mon.mode ≠ .starting ∧ t.mon.mode = .starting)

end Sys2Proof.Machine
end

