-- ==== Sys2Proof/Certificates/Slice0/Obligations.lean ====
section
/-!
DEFINITION. The statements about the ZC-440, for the provers: the step and the resets, the transfers and the requests, the
events of heads, movements, sequencer, lanes, booms and lamps, and the invariants that every step keeps. `Answers c s m` says
that command `c` answers the state `m` of its own effect but for what blocks hand to one another at the end of the event;
`AnswersAlone p c s m` that it answers `m` itself where the request changes the contact of no lane.
-/
open Sys2Proof Sys2Proof.Machine

/-! ## The step, and the resets -/

/-- A step takes the command at the front of the queue and runs it on the state with the rest of the queue. With nothing
waiting the block idles: nothing changes, time included (the model's choice, log 2). -/
def Obligations.StepRunsFrontCommand : Prop :=
  (∀ (c : Instr) (s : State) (rest : List Instr), s.pending = c :: rest → step s = exec c { s with pending := rest }) ∧
  (∀ s : State, s.pending = [] → step s = .next s)

/-- Every command answers a next state, in every state and with every operand, and leaves the queue of waiting commands alone:
no command of the block is a stop (log 32). -/
def Obligations.EveryCommandCompletes : Prop :=
  ∀ (c : Instr) (s : State), ∃ t, exec c s = .next t ∧ t.pending = s.pending

/-- What power-on leaves (R15, R37, R59, R82, R100, R123, R148, R170, R172, R182, R191, R192). -/
def Obligations.ResetValues : Prop :=
  State.reset.uptime = 0 ∧
  (∀ h : HeadId, (State.reset.head h).failure = none ∧ (State.reset.head h).decoder = .settling ∧
    (State.reset.head h).partials = 0 ∧ (State.reset.head h).lastPassage = none) ∧
  (∀ x : SectionId, (State.reset.sect x).state = .disturbed ∧ (State.reset.sect x).cause = some .start ∧
    (State.reset.sect x).count = 0 ∧ (State.reset.sect x).list = []) ∧
  (∀ k : SlotId, State.reset.slot k = none) ∧ State.reset.tracker.counter = 1 ∧ State.reset.tracker.generation = 0 ∧
  (∀ l : Lane, State.reset.lane l = ⟨.notHeard, none, none, false, none, none⟩) ∧
  State.reset.stances.combinedHold = false ∧ State.reset.stances.permit = false ∧
  State.reset.seq.state = .failedClosed ∧ State.reset.seq.closure = 0 ∧ State.reset.seq.redStart = none ∧
  State.reset.seq.causes = ⟨false, false, true, false⟩ ∧ State.reset.seq.proven = false ∧
  (∀ i : BoomId, State.reset.lowerDrive i = false ∧ State.reset.raiseDrive i = false ∧
    State.reset.holdApplied i = false ∧ (State.reset.boom i).state = .lowering) ∧
  State.reset.out.audible.programme = .silent ∧ State.reset.out.audible.tone = none ∧
  State.reset.faults.records = [] ∧ State.reset.faults.idCounter = 1 ∧ State.reset.faults.masks = 0 ∧
  State.reset.faults.sticky = 0 ∧ State.reset.faults.queue = [] ∧ State.reset.faults.overflowCount = 0 ∧
  (∀ p : Port, (State.reset.port p).reply = none ∧ (State.reset.port p).line = false) ∧
  (State.reset.port .laneA).mode = .changeAndStep ∧ (State.reset.port .laneB).mode = .changeAndStep ∧
  (State.reset.port .signaller).mode = .notice ∧ (State.reset.port .service).mode = .off ∧
  State.reset.ports.window = none ∧ State.reset.store.active = none ∧ State.reset.store.state = .idle ∧
  State.reset.mon.mode = .starting ∧ State.reset.mon.resetKind = .powerOn ∧ State.reset.mon.previousKind = none ∧
  State.reset.mon.stabilisation = some 2000

/-- POWER_ON (R191, R182, R188, R189): every block takes its power-on values; the image and its check value survive, a
write in flight leaving the image not valid; the supply state is taken afresh from the sense. A power-on with the sense
below 18 000 mV starts all the same (log 14). -/
def Obligations.PowerOnResult : Prop :=
  ∀ (v : Nat) (s : State), ∃ t, exec (.powerOn v) s = .next t ∧
    t.store.image = s.store.image ∧ t.store.imageCheck = s.store.imageCheck ∧
    t.store.imageValid = (s.store.imageValid && !s.store.busy) ∧
    t.store.imageAgrees = (s.store.imageAgrees && !s.store.busy) ∧ t.store.state = .idle ∧ t.store.active = none ∧
    t.mon.supply = (if v > 22000 then .good else if v ≥ 20500 then .warn else .low) ∧ t.mon.sense = v ∧
    t.mon.resetKind = .powerOn ∧ t.mon.previousKind = none ∧ t.pending = s.pending ∧
    t = { State.reset with store := t.store, mon := t.mon, pending := t.pending } ∧
    t.mon = { State.reset.mon with supply := t.mon.supply, sense := t.mon.sense }

/-- SUPPLY_RESET (R190, R191, R189, R182, R188): below 18 000 mV every block takes its supply-reset values, the part is held,
the reset kind moves into the previous kind, and a write in flight is abandoned. -/
def Obligations.SupplyResetResult : Prop :=
  ∀ (dt v : Nat) (s : State), s.mon.held = false → v < 18000 → ∃ t, exec (.supplyReset dt v) s = .next t ∧
    t.mon.held = true ∧ t.mon.mode = .starting ∧ t.mon.stabilisation = none ∧
    t.mon.resetKind = .supplyReset ∧ t.mon.previousKind = some s.mon.resetKind ∧
    t.mon.sense = v ∧ t.mon.supply = .low ∧
    t.store.image = s.store.image ∧ t.store.imageCheck = s.store.imageCheck ∧
    t.store.imageValid = (s.store.imageValid && !s.store.busy) ∧
    t.store.state = .idle ∧ t.store.active = none ∧ t.pending = s.pending ∧
    t = { State.reset with uptime := t.uptime, store := t.store, mon := t.mon, pending := t.pending }

/-- SUPPLY_RESET_HOLD_END (R190, R192): above 18 500 mV the hold ends, the crossing clock starts at 0 and the stabilisation
wait runs; at or below it the part stays held. That the supply state is taken afresh at the end of a hold is the model's
choice (log 14). -/
def Obligations.HoldEndResult : Prop :=
  ∀ (v : Nat) (s : State), s.mon.held = true →
    (v > 18500 → exec (.supplyResetHoldEnd v) s = .next { s with
      uptime := 0
      mon := { s.mon with
        held := false, sense := v, supply := SupplyState.fresh v, stabilisation := some 2000 } }) ∧
    (v ≤ 18500 → exec (.supplyResetHoldEnd v) s = .next { s with mon := { s.mon with sense := v } })

/-- SUPPLY_STATE_CHANGE (R189): the supply state follows the sense with 200 mV of hysteresis; SUPPLY-WARN is raised on leaving
GOOD and cleared on return to it, SUPPLY-LOW raised on entering LOW and cleared on leaving it; nothing but the state, these
faults and what follows from them changes. That a fall from GOOD through both thresholds in one event leads to LOW is the
model's choice (log 14), and so is the order of two raises or two clears (log 7). -/
def Obligations.SupplyStateFollowsTable : Prop :=
  ∀ (dt v : Nat) (s : State), s.mon.held = false → 18000 ≤ v → ∃ t, exec (.supplyStateChange dt v) s = .next t ∧
    t.mon = { s.mon with sense := v, supply := t.mon.supply } ∧
    (s.mon.supply = .good → 22000 ≤ v → t.mon.supply = .good) ∧
    (s.mon.supply = .good → 20500 ≤ v → v < 22000 → t.mon.supply = .warn) ∧
    (s.mon.supply = .warn → v < 20500 → t.mon.supply = .low) ∧
    (s.mon.supply = .warn → 20500 ≤ v → v ≤ 22200 → t.mon.supply = .warn) ∧
    (s.mon.supply = .warn → 22200 < v → t.mon.supply = .good) ∧
    (s.mon.supply = .low → v ≤ 20700 → t.mon.supply = .low) ∧
    (s.mon.supply = .low → 20700 < v → v ≤ 22200 → t.mon.supply = .warn) ∧
    (s.mon.supply = .low → 22200 < v → t.mon.supply = .good) ∧
    (s.mon.supply = .good → v < 20500 → t.mon.supply = .low) ∧
    EventFrame (
      let m : State := { s.advance dt with mon := t.mon }
      match s.mon.supply, t.mon.supply with
      | .good, .warn => m.raise .supplyWarn .supply
      | .good, .low => (m.raise .supplyWarn .supply).raise .supplyLow .supply
      | .warn, .low => m.raise .supplyLow .supply
      | .low, .warn => m.clear .supplyLow .supply
      | .low, .good => (m.clear .supplyLow .supply).clear .supplyWarn .supply
      | .warn, .good => m.clear .supplyWarn .supply
      | .good, .good | .warn, .warn | .low, .low => m) t ∧
    t.heads = s.heads ∧ t.sections = s.sections ∧ t.store = s.store

/-! ## Start-up -/

/-- STABILISATION_WAIT_END (R192, R148, R69): the outputs take effect under FAILED-CLOSED, every boom ordered LOWER and DOWN or
LOWERING by its contacts, the lamps and the audible warning at the values of R148's table, the red start is set and the image
read begins. The premises are what holds in the wait. That the end acts when its command comes at or after its time is the
model's reading (log 3), and that the red start and the read expiry are then timed at the command is too (log 12). -/
def Obligations.OutputsTakeEffect : Prop :=
  ∀ (dt : Nat) (e : Time) (s : State), s.mon.held = false → s.mon.stabilisation = some e →
    reached (s.advance dt).now e = true → s.mon.mode = .starting → s.seq.state = .failedClosed →
    s.seq.causes.start = true →
    ∃ t, exec (.stabilisationWaitEnd dt) s = .next t ∧
      t.mon = { s.mon with stabilisation := none } ∧ OutputsBegun s.boom t ∧ t.out.driven = true ∧
      (∀ i, (t.boom i).order = .lower ∧ (t.boom i).source = .sequencer ∧
        (t.boom i).state = (if (s.boom i).downAlone then .down else .lowering) ∧
        (t.boom i).upContact = (s.boom i).upContact ∧ (t.boom i).downContact = (s.boom i).downContact) ∧
      (∀ c, (t.lamp c).condition = .proven 0 ∧ (t.lamp c).stray = false) ∧
      t.out.flash.phase = .one ∧ t.out.flash.flashing = true ∧
      t.seq.state = .failedClosed ∧ t.seq.closure = s.seq.closure ∧ t.seq.redStart = some (s.advance dt).now ∧
      t.store = { s.store with state := .reading (after (s.advance dt).now 100) } ∧
      t.heads = s.heads ∧ t.sections = s.sections ∧ t.faults.table = s.faults.table ∧ t.faults.queue = s.faults.queue

/-- READ_COMPLETION and READ_EXPIRY (R182, R192, R15, R37, R14, R100, R160, R115, R123, R148, R159, R164, R170, R189): the read
ends, the copies take their values, the mode becomes NORMAL or UNCONFIGURED, heads begin observing, sections take their entries,
and contact supervision begins. START leaves the cause set for NORMAL, and stays with CONFIG for UNCONFIGURED; a road
FAILED-CLOSED with an empty set and all booms DOWN is CLOSED, under the same number. The CROSSING-STATUS with the reset cause
heads the queue. Each fault that stands is raised, SECTION-DISTURBED for each used section and CONFIG-INVALID in UNCONFIGURED
among them: its record stands and was seen in this event, or it was counted in the overflow record; a kept record whose
condition does not stand is CLEARED, those of SECTION-DISTURBED, SECTION-LIST-FULL and MOVEMENT-TABLE-FULL of a section left
unused among them (R37, R49); and PART-RESTARTED is recorded CLEARED with the reset kind. On an empty table, with no other fault
standing, the fault unit is exactly that of these raises. That an expired read judges the whole stored image, and so may end in
NORMAL, is the model's choice (log 44), and so is the order of the raises beyond what R164 and R170 say (log 24); that the
expiry acts when its command comes at or after its time is its reading (log 3). -/
def Obligations.LeavingStarting : Prop :=
  ∀ (dt : Nat) (e : Time) (s : State) (c : Instr), s.mon.held = false → s.store.state = .reading e →
    (c = .readCompletion dt ∨ (c = .readExpiry dt ∧ reached (s.advance dt).now e = true)) →
    ∃ t, exec c s = .next t ∧
      t.mon.mode = (if s.imageGood then .normal else .unconfigured) ∧
      t.store.state = .idle ∧ t.store.image = s.store.image ∧ t.store.imageValid = s.imageGood ∧
      t.store.active = (if s.imageGood then some s.store.image else none) ∧
      t.store.staging = (if s.imageGood then s.store.image else ConfigImage.blank) ∧
      (∀ h, t.head h = (s.head h).observe (s.uptime + dt)) ∧
      (∀ x, t.sect x = match t.store.active.bind fun a => a.sections[x].place with
        | some p => { s.sect x with place := some p }
        | none => ⟨none, 0, .clear, none, none, none, []⟩) ∧
      (t.lane .a).supervisedFrom = some (s.advance dt).now ∧
      (t.cfg.dual = true → (t.lane .b).supervisedFrom = some (s.advance dt).now) ∧
      (s.mon.resetKind = .restart → t.faults.masks = s.faults.masks) ∧
      (s.mon.resetKind ≠ .restart → t.faults.masks = match t.store.active with
        | some a => a.defaultMasks
        | none => 0) ∧
      t.seq.causes.start = (s.seq.causes.start && !s.imageGood) ∧
      t.seq.causes.config = (!s.imageGood || s.seq.causes.config && s.seq.configMark) ∧
      (s.seq.state = .failedClosed → t.seq.closure = s.seq.closure ∧
        t.seq.state = if t.noCause = true ∧ t.out.booms.allDown = true then .closed else .failedClosed) ∧
      let status := Notice.crossingStatus (t.statusNotice (some (s.mon.resetKind, s.mon.previousKind)))
      let stands : FaultKind → Subject → Option Bool := fun k x => match k, x with
        | .sectionDisturbed, .sect y => some (t.sect y).place.isSome
        | .boomTravelTimeout, .boom i => some (s.boom i).failures.timeout
        | .boomContactConflict, .boom i => some (s.boom i).failures.conflict
        | .boomDisplaced, .boom i => some (s.boom i).failures.displaced
        | .redLampOut, .lamp c => if c.isRed then some (s.lamp c).failed else none
        | .amberLampOut, .lamp c => if c.isRed then none else some (s.lamp c).failed
        | .lampStrayCurrent, .lamp c => some (s.lamp c).stray
        | .audibleOpenCircuit, .audible => some s.out.audible.openCircuit
        | .supplyWarn, .supply => some (s.mon.supply != .good)
        | .supplyLow, .supply => some (s.mon.supply == .low)
        | .configInvalid, .configuration => some (!s.imageGood)
        | .storeWriteFailed, .configuration | .shortWarning, .movement _ | .longApproach, .movement _ | .laneLost, .lane _
        | .laneDisagree, .lane _ => some false
        | .sectionListFull, .sect y | .movementTableFull, .sect y => if (t.sect y).place = none then some false else none
        | _, _ => none
      (StartUpShape s → QueueBounded s → ∃ rest, t.faults.queue = status :: rest) ∧
      (StartUpShape s → FaultsDistinct s.faults → ClearedListed s.faults →
        (∀ k x, stands k x = some true → FaultClass.inSet k.cls t.faults.sticky = true ∧
          (t.faults.find k x = none → FaultClass.inSet .config t.faults.sticky = true) ∧
          ∀ q r, t.faults.find k x = some (q, r) → r.state ≠ FaultState.cleared ∧ r.lastSeen = t.seconds) ∧
        (∀ k x q r, stands k x = some false → t.faults.find k x = some (q, r) → r.state = FaultState.cleared) ∧
        FaultClass.inSet .supply t.faults.sticky = true ∧
        (t.faults.find .partRestarted .supply = none → FaultClass.inSet .config t.faults.sticky = true) ∧
        ∀ q r, t.faults.find .partRestarted .supply = some (q, r) →
          r.state = FaultState.cleared ∧ r.detail = some s.mon.resetKind ∧ r.lastSeen = t.seconds) ∧
      (StartUpShape s → QueueBounded s → s.faults.records = [] → s.faults.clearedOrder = [] →
        (∀ k x, stands k x = some true → k = .sectionDisturbed ∨ k = .configInvalid) →
        let begun : FaultUnit := { s.faults with masks := t.faults.masks, queue := [status] }
        let used := (List.finRange 10).filter fun y => (t.sect y).place.isSome
        let raised := used.foldl (fun u y => u.raise t.seconds .sectionDisturbed (.sect y) .major) begun
        let recorded := raised.partRestarted t.seconds s.mon.resetKind
        t.faults = if s.imageGood then recorded
          else recorded.raise t.seconds .configInvalid .configuration .critical)

/-! ## Transfers -/

/-- TRANSFER_IGNORED and COLLECT (R173, R172, R190): an ignored transfer changes no record; a COLLECT shifts out the held
reply and then zeros, and keeps it. While the part is held no request is taken and none is answered, and a COLLECT shifts
out zeros: the port's reply, every other record, and the clock stand. The octets shifted out stand in a field of the
model's own (log 20). -/
def Obligations.TransfersBesideRequests : Prop :=
  (∀ (dt n : Nat) (p : Port) (first : Option Octet) (s : State), s.mon.held = false →
     exec (.transferIgnored dt p first) s = .next (s.advance dt) ∧
     exec (.collect dt p n) s = .next ((s.advance dt).setPort p { s.port p with
       shifted := (((s.port p).reply.getD []) ++ List.replicate n 0).take n })) ∧
  (∀ (dt n : Nat) (p : Port) (tag : Octet) (l : List Octet) (s : State), s.mon.held = true →
     exec (.collect dt p n) s = .next (s.setPort p { s.port p with shifted := List.replicate n 0 }) ∧
     exec (.requestFrameFailed dt p l) s = .next (s.setPort p { s.port p with shifted := List.replicate l.length 0 }) ∧
     exec (.status dt p tag) s = .next (s.setPort p { s.port p with shifted := List.replicate 6 0 }) ∧
     exec (.hold dt p tag) s = .next (s.setPort p { s.port p with shifted := List.replicate 6 0 }))

/-- REQUEST_FRAME_FAILED (R174, R172): a frame that fails the check is answered FRAME-ERROR with the reason, coded in the order
LENGTH, SHORT, LONG, CHECK, CODE, FORM (R181), its tag and code echoed as they arrived and as 0 where they did not; it acts on
nothing but the reply buffer and the service port's load window, and it is no contact. -/
def Obligations.FrameErrorResult : Prop :=
  (∀ r : FrameReason, octet r.number = coded [.length, .short, .long, .check, .code, .form] r) ∧
  ∀ (dt : Nat) (p : Port) (l : List Octet) (r : FrameReason) (s : State), s.mon.held = false →
    checkFrame l = .error r →
    exec (.requestFrameFailed dt p l) s = .next { s.advance dt with
      ports := { s.ports.set p { s.port p with
          shifted := List.replicate l.length 0
          reply := some (replyFrame (l.getD 2 0) (l.getD 3 0) .frameError [octet r.number]) } with
        window := if p = .service then none else s.ports.window } }

/-- The frame check takes its reasons in order (R174): LENGTH, SHORT, LONG, CHECK, CODE, FORM. A frame whose length field did
not arrive is SHORT (log 19). -/
def Obligations.FrameCheckOrder : Prop :=
  ∀ (hi lo : Octet) (rest : List Octet),
    (checkFrame [] = .error .short ∧ checkFrame [hi] = .error .short) ∧
    ((hi ++ lo : Half).toNat < 2 ∨ 256 < (hi ++ lo : Half).toNat → checkFrame (hi :: lo :: rest) = .error .length) ∧
    (2 ≤ (hi ++ lo : Half).toNat → (hi ++ lo : Half).toNat ≤ 256 →
      (rest.length < (hi ++ lo : Half).toNat + 2 → checkFrame (hi :: lo :: rest) = .error .short) ∧
      ((hi ++ lo : Half).toNat + 2 < rest.length → checkFrame (hi :: lo :: rest) = .error .long) ∧
      (rest.length = (hi ++ lo : Half).toNat + 2 →
        half (crc (hi :: lo :: rest.take (hi ++ lo : Half).toNat)) ≠ rest.drop (hi ++ lo : Half).toNat →
        checkFrame (hi :: lo :: rest) = .error .check) ∧
      (rest.length = (hi ++ lo : Half).toNat + 2 →
        half (crc (hi :: lo :: rest.take (hi ++ lo : Half).toNat)) = rest.drop (hi ++ lo : Half).toNat →
        RequestKind.ofCode (rest.getD 1 0) = none → checkFrame (hi :: lo :: rest) = .error .code) ∧
      (∀ k, rest.length = (hi ++ lo : Half).toNat + 2 →
        half (crc (hi :: lo :: rest.take (hi ++ lo : Half).toNat)) = rest.drop (hi ++ lo : Half).toNat →
        RequestKind.ofCode (rest.getD 1 0) = some k →
        k.formHolds ((rest.drop 2).take ((hi ++ lo : Half).toNat - 2)) = false →
        checkFrame (hi :: lo :: rest) = .error .form))

/-- Every request frame of the right form passes the frame check and gives its tag, its request and its arguments again (R174,
R181): no octet of a frame is dropped. A request frame is its tag, code and arguments, and a reply frame its tag, code, outcome
and data, behind the length in two octets and before the check value, which the register of R174 gives bit by bit over all of
it; numbers go most significant octet first. -/
def Obligations.FrameRoundTrip : Prop :=
  (∀ (tag : Octet) (k : RequestKind) (args : List Octet), args.length ≤ 254 → k.formHolds args = true →
    checkFrame (requestFrame tag k.codeOctet args) = .ok ⟨tag, k, args⟩) ∧
  (∀ (tag code : Octet) (args : List Octet), requestFrame tag code args = framed (tag :: code :: args)) ∧
  (∀ (tag code : Octet) (o : ReplyOutcome) (data : List Octet),
    replyFrame tag code o data = framed (tag :: code :: coded outcomes o :: data)) ∧
  (∀ l : List Octet, crc l = checkValue l) ∧ (∀ n : Half, half n = big 2 n.toNat) ∧ (∀ n : Nat, [octet n] = big 1 n)

/-- The octets of a request frame are the request: handed in as they arrived, they do what the row of the request does (R173,
R181; log 19). -/
def Obligations.FrameTakenAsRequest : Prop :=
  ∀ (dt : Nat) (p : Port) (tag a b c d : Octet) (n : Half) (l : List Octet) (s : State),
    let frame := fun (k : RequestKind) (args : List Octet) =>
      exec (.requestFrameFailed dt p (requestFrame tag k.codeOctet args)) s
    frame .status [] = exec (.status dt p tag) s ∧
    frame .poll [] = exec (.poll dt p tag) s ∧
    frame .test [a] = exec (.test dt p tag a) s ∧
    frame .readMovements [a, b] = exec (.readMovements dt p tag a b) s ∧
    frame .readSections [] = exec (.readSections dt p tag) s ∧
    frame .readHeads [] = exec (.readHeads dt p tag) s ∧
    frame .readFaults [a, b] = exec (.readFaults dt p tag a b) s ∧
    frame .setAttention [a] = exec (.setAttention dt p tag a) s ∧
    frame .hold [] = exec (.hold dt p tag) s ∧
    frame .release [] = exec (.release dt p tag) s ∧
    frame .consent (half n) = exec (.consent dt p tag n) s ∧
    frame .agreeReset [a] = exec (.agreeReset dt p tag a) s ∧
    frame .depart [a] = exec (.depart dt p tag a) s ∧
    frame .reopenStanding [a] = exec (.reopenStanding dt p tag a) s ∧
    frame .resetSection [a, b] = exec (.resetSection dt p tag a b) s ∧
    frame .ackFault [a] = exec (.ackFault dt p tag a) s ∧
    frame .permitMaintenance [] = exec (.permitMaintenance dt p tag) s ∧
    frame .withdrawPermit [] = exec (.withdrawPermit dt p tag) s ∧
    frame .enterMaintenance [] = exec (.enterMaintenance dt p tag) s ∧
    frame .leaveMaintenance [] = exec (.leaveMaintenance dt p tag) s ∧
    frame .boomTest [a, b] = exec (.boomTest dt p tag a b) s ∧
    frame .lampTest [a] = exec (.lampTest dt p tag a) s ∧
    frame .setMasks (half n) = exec (.setMasks dt p tag n) s ∧
    frame .restart [] = exec (.restart dt p tag) s ∧
    frame .loadWindow [a, b, c] = exec (.loadWindow dt p tag a b c) s ∧
    (RequestKind.loadData.formHolds (a :: b :: l) = true → l.length ≤ 252 →
      frame .loadData (a :: b :: l) = exec (.loadData dt p tag a b l) s ∧
      frame .loadContinue (a :: b :: l) = exec (.loadContinue dt p tag a b l) s) ∧
    frame .readWindow [a, b, c, d] = exec (.readWindow dt p tag a b c d) s ∧
    frame .commit [] = exec (.commit dt p tag) s

/-- The permission table: the code of each request, its argument octets, and the modes in which each port may make it; no other
code is a request (R174 to R176; that the codes are decimal is the model's reading, log 18). A request refused by the port or
mode checks (R175, R176, R90): its reply names the first check that fails and carries no data, but a CONSENT's the closure
number and consent completeness; beside the reply, the lane's contact and the load window nothing changes, but for what a change
of that contact hands round. A load request refused by the mode check finds the load window closed after it, as every other
request of the service port does (R172). -/
def Obligations.PortAndModeRefusals : Prop :=
  (∀ k : RequestKind, ∃ code count lanes signaller service, (k, code, count, lanes, signaller, service) ∈ permissionTable ∧
    k.codeOctet = BitVec.ofNat 8 code ∧ RequestKind.ofCode k.codeOctet = some k ∧
    (∀ p, k.modes p = match p with
      | .laneA | .laneB => lanes
      | .signaller => signaller
      | .service => service) ∧
    ∀ args, k.formHolds args = true ↔ match count with
      | some n => args.length = n
      | none => ∃ a b l t, args = a :: b :: l ∧ TableId.ofCode a = some t ∧ l.length = b.toNat * t.size) ∧
  (∀ o : Octet, (∀ row ∈ permissionTable, row.2.1 ≠ o.toNat) → RequestKind.ofCode o = none) ∧
  ∀ (dt : Nat) (p : Port) (tag : Octet) (k : RequestKind) (args : List Octet) (s : State), s.mon.held = false →
    args.length ≤ 254 → k.formHolds args = true →
    let asked := s.asked dt k p args
    let data := if k = .consent then half s.seq.closure ++ [octet (flag asked.consentComplete)] else []
    (((∀ m, m ∉ k.modes p) ∨ (p = .laneB ∧ s.cfg.dual = false) ∨
        (k = .resetSection ∧ p = .service ∧ args.getD 1 0 = 1)) →
      AnswersAlone p (.requestFrameFailed dt p (requestFrame tag k.codeOctet args)) s (asked.replied p tag k .refusedPort data)) ∧
    ((∃ m, m ∈ k.modes p) → s.mon.mode ∉ k.modes p → ¬(p = .laneB ∧ s.cfg.dual = false) →
        ¬(k = .resetSection ∧ p = .service ∧ args.getD 1 0 = 1) →
      (p = .service → (asked.closeWindowIf p true).ports.window = none) ∧
      AnswersAlone p (.requestFrameFailed dt p (requestFrame tag k.codeOctet args)) s
        ((asked.closeWindowIf p true).replied p tag k .refusedMode data))

/-- What a request finds before it is judged (R85, R172, R173): time has moved on; the port has shifted out zeros; its lane,
when it takes part and the mode is not STARTING, is PRESENT and heard now; a request of the service port other than a load
has closed the load window; nothing else has changed but LANE-LOST of a lane that was LOST. -/
def Obligations.ContactTaken : Prop :=
  ∀ (dt : Nat) (p : Port) (k : RequestKind) (args : List Octet) (s : State),
    let t := s.asked dt k p args
    t.uptime = s.uptime + dt ∧ (t.port p).shifted = List.replicate (args.length + 6) 0 ∧
    (t.port p).reply = (s.port p).reply ∧ (∀ q, q ≠ p → t.port q = s.port q) ∧
    (∀ l, p.lane = some l → s.mon.mode ≠ .starting → s.shutOut p = false →
      t.lane l = { s.lane l with contact := .present, lastContact := some (s.advance dt).now }) ∧
    (∀ l, p.lane = some l → s.mon.mode ≠ .starting → s.shutOut p = false → (s.lane l).contact = .lost →
      t.faults = s.faults.clear (s.advance dt).seconds .laneLost (.lane l)) ∧
    (∀ l, (p.lane ≠ some l ∨ s.mon.mode = .starting ∨ s.shutOut p = true) → t.lane l = s.lane l) ∧
    (∀ l, p.lane = some l → (s.lane l).contact ≠ .lost → t.faults = s.faults) ∧ (p.lane = none → t.faults = s.faults) ∧
    t.ports.window = (if p = .service ∧ k.isLoad = false then none else s.ports.window) ∧
    t.heads = s.heads ∧ t.sections = s.sections ∧ t.tracker = s.tracker ∧ t.approach = s.approach ∧ t.seq = s.seq ∧
    t.out = s.out ∧ t.store = s.store ∧ t.mon = s.mon ∧ t.pending = s.pending ∧
    t.stances.signallerHold = s.stances.signallerHold ∧ t.stances.serviceHold = s.stances.serviceHold ∧
    t.stances.permit = s.stances.permit ∧ t.stances.maintenance = s.stances.maintenance

/-- STATUS, READ-SECTIONS and READ-HEADS from a master whose lane's contact they do not change answer exactly their reply, and
change nothing else (R169, R39, R17). The data are the layouts of R181, written out field by field from its tables; their sizes
are those of R181 and R162: STATUS 67 octets, a movement 46, a section 13, a head 32, a fault position 19, and each notice the
size by which the queue counts it. The octets of absent fields are the model's reading (log 21), and so is it that the numbers
of records in STATUS count the overflow record (log 34). -/
def Obligations.QuietReadReplies : Prop :=
  (∀ (dt : Nat) (p : Port) (tag : Octet) (s : State), s.heard p = true →
     (s.permits .status p = true → exec (.status dt p tag) s = .next
       ((s.asked dt .status p []).replied p tag .status .done (statusLayout (s.advance dt)))) ∧
     (s.permits .readSections p = true → exec (.readSections dt p tag) s = .next
       ((s.asked dt .readSections p []).replied p tag .readSections .done
         (big 2 s.tracker.generation.toNat ++ (List.finRange 10).flatMap (sectionLayout s)))) ∧
     (s.permits .readHeads p = true → exec (.readHeads dt p tag) s = .next
       ((s.asked dt .readHeads p []).replied p tag .readHeads .done
         (big 2 s.tracker.generation.toNat ++ (List.finRange 12).flatMap fun h => headLayout (s.head h))))) ∧
  (∀ (s : State) (m : Option Movement) (x : SectionId) (r : Head) (i : Nat) (n : Notice),
     (statusLayout s).length = 67 ∧ (movementLayout m).length = 46 ∧ (sectionLayout s x).length = 13 ∧
     (headLayout r).length = 32 ∧ (faultLayout s.faults i).length = 19 ∧ (noticeLayout n).length = n.size ∧
     n.size = match n with
       | .faultRaised .. => 10
       | .faultCleared .. => 6
       | .crossingStatus st => if st.cause = none then 12 else 14
       | .movementPassed .. => 8
       | .restored .. => 4)

/-- The reads complete with outcome DONE and the items of R177, each laid out field by field as the tables of R181 give it
(R169, R178, R61, R39, R17, R168, R185). A predicate code above 7, a window whose first lies above its last or whose last lies
above the top of what it names, and a copy code above 2 or a table code above 5 are refused with REFUSED-RANGE; a READ-WINDOW of
an ACTIVE copy that is absent, or of an IMAGE that is not valid, with REFUSED-STATE, after those. A read changes the reply, the
contact and the load window alone. TEST answers for each track, in bit t - 1 for track t, the predicate as the tables of R39 and
R83 and the per-track demand of R78 give it for the used sections and the live movements of the track; for a track without a
used section each is FALSE. The octets of absent fields are the model's reading (log 21), that the numbers of records in STATUS
count the overflow record is its reading (log 34), and so is it that the data of a STATUS and of a READ-FAULTS from a lane are
those after the contact which the request makes (log 17). -/
def Obligations.ReadReplies : Prop :=
  ∀ (dt : Nat) (p : Port) (tag a b c d : Octet) (s : State),
    let generation := big 2 s.tracker.generation.toNat
    (s.permits .status p = true → AnswersAlone p (.status dt p tag) s
      ((s.asked dt .status p []).replied p tag .status .done (statusLayout (s.asked dt .status p [])))) ∧
    (∀ q, s.permits .test p = true → Predicate.ofCode a = some q → AnswersAlone p (.test dt p tag a) s
      ((s.asked dt .test p [a]).replied p tag .test .done
        ([flagged ((List.finRange 4).map (s.answer q))] ++ generation))) ∧
    (∀ q n, s.answer q n = true ↔ Answered s q n) ∧
    (∀ q, Predicate.ofCode (coded [.occupied, .demand, .crossing, .arriving, .standing, .disturbed, .approachAClear,
      .approachBClear] q) = some q) ∧
    (s.permits .test p = true → 7 < a.toNat → AnswersAlone p (.test dt p tag a) s
      ((s.asked dt .test p [a]).replied p tag .test .refusedRange [])) ∧
    (s.permits .readMovements p = true → a.toNat ≤ b.toNat → b.toNat ≤ 15 → AnswersAlone p (.readMovements dt p tag a b) s
      ((s.asked dt .readMovements p [a, b]).replied p tag .readMovements .done
        ([a, b] ++ generation ++ windowed a b fun i => movementLayout (s.tracker.slots[i]?).join))) ∧
    (s.permits .readMovements p = true → b.toNat < a.toNat ∨ 15 < b.toNat → AnswersAlone p (.readMovements dt p tag a b) s
      ((s.asked dt .readMovements p [a, b]).replied p tag .readMovements .refusedRange [])) ∧
    (s.permits .readSections p = true → AnswersAlone p (.readSections dt p tag) s
      ((s.asked dt .readSections p []).replied p tag .readSections .done
        (generation ++ (List.finRange 10).flatMap (sectionLayout s)))) ∧
    (s.permits .readHeads p = true → AnswersAlone p (.readHeads dt p tag) s
      ((s.asked dt .readHeads p []).replied p tag .readHeads .done
        (generation ++ (List.finRange 12).flatMap fun h => headLayout (s.head h)))) ∧
    (s.permits .readFaults p = true → a.toNat ≤ b.toNat → b.toNat ≤ 31 → AnswersAlone p (.readFaults dt p tag a b) s
      ((s.asked dt .readFaults p [a, b]).replied p tag .readFaults .done
        ([a, b] ++ generation ++ windowed a b (faultLayout (s.asked dt .readFaults p [a, b]).faults)))) ∧
    (s.permits .readFaults p = true → b.toNat < a.toNat ∨ 31 < b.toNat → AnswersAlone p (.readFaults dt p tag a b) s
      ((s.asked dt .readFaults p [a, b]).replied p tag .readFaults .refusedRange [])) ∧
    (s.permits .readWindow p = true →
      let asked := s.asked dt .readWindow p [a, b, c, d]
      let answer := fun (o : ReplyOutcome) (data : List Octet) =>
        AnswersAlone p (.readWindow dt p tag a b c d) s (asked.replied p tag .readWindow o data)
      (2 < a.toNat ∨ TableId.ofCode b = none → answer .refusedRange []) ∧
      (∀ t, TableId.ofCode b = some t →
        (d.toNat < c.toNat ∨ t.entries ≤ d.toNat → answer .refusedRange []) ∧
        (c.toNat ≤ d.toNat → d.toNat < t.entries →
          (∀ image, (a = 0 ∧ s.store.staging = image) ∨ (a = 1 ∧ s.store.active = some image) ∨
              (a = 2 ∧ s.store.imageValid = true ∧ s.store.image = image) →
            answer .done ([a, b, c, d] ++ generation ++ windowed c d (entryLayout image t))) ∧
          ((a = 1 ∧ s.store.active = none) ∨ (a = 2 ∧ s.store.imageValid = false) → answer .refusedState []))))

/-- POLL (R166, R161, R167): the reply takes notices from the head of the queue while their sizes sum to at most 60 octets; they
leave the queue, the overflow count and the sticky flags are reported and cleared, and nothing else of the unit changes. The
reply has the header and the notices as R181 lays them out. -/
def Obligations.PollResult : Prop :=
  ∀ (dt : Nat) (tag : Octet) (s : State), s.permits .poll .signaller = true →
    ∃ t taken, exec (.poll dt .signaller tag) s = .next t ∧ taken ++ t.faults.queue = s.faults.queue ∧
      (taken.map Notice.size).sum ≤ 60 ∧
      (∀ n rest, t.faults.queue = n :: rest → (taken.map Notice.size).sum + n.size > 60) ∧
      t.faults = { s.faults with queue := t.faults.queue, overflowCount := 0, sticky := 0 } ∧
      (t.port .signaller).reply = some (replyFrame tag 2 .done
        (big 1 s.faults.overflowCount ++ big 2 s.faults.sticky.toNat ++ big 1 t.faults.queue.length ++
          taken.flatMap noticeLayout)) ∧
      t.heads = s.heads ∧ t.sections = s.sections ∧ t.tracker = s.tracker ∧ t.approach = s.approach ∧
      t.stances = s.stances ∧ t.seq = s.seq ∧ t.out = s.out ∧ t.store = s.store ∧ t.mon = s.mon

/-! ## Requests that set a port or the fault unit -/

/-- SET-ATTENTION (R179): the sending port's mode is set and the reply carries it; a change to NOTICE takes the line to the
level of the queue, a change to another mode deasserts it, and a pulse under way ends; the mode the port has already leaves
the line and its pulse as they were; no other port's mode changes, and no other port's line by the request; a code above 3 is
refused. Where the lane's contact changes by the request, the request ends as an event, and the line stands as R180 gives it for
the mode then set: in OFF deasserted, in NOTICE at the level of the queue as it then stands, in the other two asserted while a
pulse lasts, one that the event itself starts or, where the mode is the one the port had, the one under way. -/
def Obligations.SetAttentionResult : Prop :=
  ∀ (dt : Nat) (p : Port) (tag a : Octet) (s : State), s.permits .setAttention p = true →
    let asked := s.asked dt .setAttention p [a]
    (∀ m, AttentionMode.ofCode a = some m → m = (s.port p).mode → AnswersAlone p (.setAttention dt p tag a) s
      (asked.replied p tag .setAttention .done [a])) ∧
    (∀ m, AttentionMode.ofCode a = some m → m ≠ (s.port p).mode → AnswersAlone p (.setAttention dt p tag a) s
      ((asked.setPort p { asked.port p with
        mode := m, pulseEnd := none, line := m == .notice && !asked.faults.queue.isEmpty }).replied
          p tag .setAttention .done [a])) ∧
    (s.heard p = true → ∀ m, AttentionMode.ofCode a = some m → m ≠ (s.port p).mode →
      ∃ t, exec (.setAttention dt p tag a) s = .next t ∧ (t.port p).mode = m ∧ (t.port p).pulseEnd = none ∧
        (t.port p).line = (m == .notice && !s.faults.queue.isEmpty) ∧ ∀ q, q ≠ p → t.port q = s.port q) ∧
    (s.heard p = true → ∀ m, AttentionMode.ofCode a = some m → m = (s.port p).mode →
      ∃ t, exec (.setAttention dt p tag a) s = .next t ∧ (t.port p).mode = m ∧ (t.port p).pulseEnd = (s.port p).pulseEnd ∧
        (t.port p).line = (s.port p).line ∧ ∀ q, q ≠ p → t.port q = s.port q) ∧
    (s.heard p = false → ∀ m, AttentionMode.ofCode a = some m →
      ∃ t, exec (.setAttention dt p tag a) s = .next t ∧ (t.port p).mode = m ∧
        (∀ q, q ≠ p → (t.port q).mode = (s.port q).mode) ∧
        let pulsed := ((m = .change ∨ m = .changeAndStep) ∧ t.tracker.generation ≠ s.tracker.generation) ∨
          (m = .changeAndStep ∧ t.seq.state ≠ s.seq.state)
        (t.port p).pulseEnd = (if pulsed then some (t.uptime + 5) else if m = (s.port p).mode then (s.port p).pulseEnd else none) ∧
        (t.port p).line = match m with
          | .off => false
          | .notice => !t.faults.queue.isEmpty
          | .change | .changeAndStep => (t.port p).pulseEnd.isSome) ∧
    (3 < a.toNat → AnswersAlone p (.setAttention dt p tag a) s (asked.replied p tag .setAttention .refusedRange []))

/-- ACK-FAULT (R158): id 0 is refused with REFUSED-RANGE and an id that no record holds with REFUSED-STATE; an ACTIVE record
becomes ACKNOWLEDGED, an ACKNOWLEDGED one stays so, and a CLEARED one leaves the table and the cleared order; the overflow
record is acknowledged in the same way; the other records, the flags, the masks and the queue are as they were. SET-MASKS
(R160, R181): all nine masks are replaced, no record and no notice changes; a set bit above bit 8 is refused with
REFUSED-RANGE. -/
def Obligations.AckFaultAndSetMasks : Prop :=
  (∀ (dt : Nat) (tag id : Octet) (s : State), s.permits .ackFault .signaller = true →
    let asked := s.asked dt .ackFault .signaller [id]
    (id = 0 → AnswersAlone .signaller (.ackFault dt .signaller tag id) s (asked.replied .signaller tag .ackFault .refusedRange [])) ∧
    (id ≠ 0 → s.faults.idInUse id.toNat = false →
      AnswersAlone .signaller (.ackFault dt .signaller tag id) s (asked.replied .signaller tag .ackFault .refusedState [])) ∧
    (∀ (q : Fin 31) (r : FaultRecord), id ≠ 0 → s.faults.table[q] = some r → r.id = id.toNat →
      (∀ (q' : Fin 31) (r' : FaultRecord), s.faults.table[q'] = some r' → r'.id = id.toNat → q' = q) →
      ∃ t, exec (.ackFault dt .signaller tag id) s = .next t ∧
        t.faults.table[q] = (if r.state = FaultState.cleared then none else some { r with state := .acknowledged }) ∧
        (∀ q' : Fin 31, q' ≠ q → t.faults.table[q'] = s.faults.table[q']) ∧
        (r.state = FaultState.cleared → t.faults.clearedOrder = s.faults.clearedOrder.filter (· ≠ q)) ∧
        (r.state ≠ FaultState.cleared → t.faults.clearedOrder = s.faults.clearedOrder) ∧
        t.faults.overflow = s.faults.overflow ∧ t.faults.queue = s.faults.queue ∧ t.faults.sticky = s.faults.sticky ∧
        t.faults.masks = s.faults.masks ∧ t.faults.idCounter = s.faults.idCounter ∧
        (t.port .signaller).reply = some (replyFrame tag 17 .done
          [id, if r.state = FaultState.cleared then 0 else 2])) ∧
    (∀ r : FaultRecord, id ≠ 0 → s.faults.overflow = some r → r.id = id.toNat →
      (∀ (q : Fin 31) (r' : FaultRecord), s.faults.table[q] = some r' → r'.id ≠ id.toNat) →
      exec (.ackFault dt .signaller tag id) s = .next ({ asked with faults := { s.faults with
        overflow := if r.state = FaultState.cleared then none else some { r with state := .acknowledged } } }.replied
          .signaller tag .ackFault .done [id, if r.state = FaultState.cleared then 0 else 2]))) ∧
  (∀ (dt : Nat) (tag : Octet) (n : Half) (s : State), s.permits .setMasks .service = true →
    let asked := s.asked dt .setMasks .service (half n)
    (n.toNat ≤ 511 → exec (.setMasks dt .service tag n) s = .next
      ({ asked with faults := { s.faults with masks := n.setWidth 9 } }.replied .service tag .setMasks .done [])) ∧
    (511 < n.toNat → exec (.setMasks dt .service tag n) s = .next
      (asked.replied .service tag .setMasks .refusedRange [])))

/-! ## Stances -/

/-- HOLD and RELEASE (R88, R92): the sending stance's hold alone is set or made absent, a lane's HOLD drops that lane's
consent; the reply carries the closure number current when the request was taken, the hold, and the combined hold. The
combined hold and the hold are those after the request, the number that before it (log 17). -/
def Obligations.HoldAndRelease : Prop :=
  ∀ (dt : Nat) (p : Port) (tag : Octet) (s : State),
    (s.permits .hold p = true → ∃ v, Answers (.hold dt p tag) s
        ({ s.asked dt .hold p [] with stances := v }.replied p tag .hold .done
          (half s.seq.closure ++ [1, octet (flag v.combinedHold)])) ∧
      (∀ q, v.holdOf q = (s.stances.holdOf q || q == p)) ∧
      (∀ l, p.lane = some l → v.lane l = { (s.asked dt .hold p []).lane l with hold := true, consent := none }) ∧
      (∀ l, p.lane ≠ some l → v.lane l = s.lane l) ∧ v.permit = s.stances.permit ∧
      v.maintenance = s.stances.maintenance ∧ v.disagreement = s.stances.disagreement) ∧
    (s.permits .release p = true → ∃ v, Answers (.release dt p tag) s
        ({ s.asked dt .release p [] with stances := v }.replied p tag .release .done
          (half s.seq.closure ++ [0, octet (flag v.combinedHold)])) ∧
      (∀ q, v.holdOf q = (s.stances.holdOf q && q != p)) ∧
      (∀ l, p.lane = some l → v.lane l = { (s.asked dt .release p []).lane l with hold := false }) ∧
      (∀ l, p.lane ≠ some l → v.lane l = s.lane l) ∧ v.permit = s.stances.permit ∧
      v.maintenance = s.stances.maintenance ∧ v.disagreement = s.stances.disagreement)

/-- The combined hold is present while any of the four stances has its hold held, whatever the contact of a lane stance, or
maintenance is active, and absent otherwise (R89). Consent is complete when every lane that takes part is PRESENT and carries a
consent that names the current closure number and was given within the last 10 s: both lanes in DUAL, Lane A alone in SINGLE
(R91). Raise is otherwise permitted when every condition of R111 but complete consent holds. Disagreement is supervised exactly
while, in DUAL, it is, both lanes are PRESENT and one alone carries a consent (R94): every step keeps that so, given what holds
of start-up, and a supervision that begins in a step begins at its time. That a consent given exactly 10 s ago still counts is the model's reading (log 39). -/
def Obligations.CombinedHoldAndConsent : Prop :=
  (∀ v : Stances, v.combinedHold = true ↔ (∃ p : Port, v.holdOf p = true) ∨ v.maintenance = true) ∧
  (∀ s : State, s.consentComplete = true ↔
     ∀ l : Lane, (l = .a ∨ s.cfg.dual = true) → (s.lane l).contact = .present ∧
       ∃ g, (s.lane l).consent = some g ∧ g.closure = s.seq.closure ∧ since s.now g.given ≤ 10000) ∧
  (∀ s : State, s.raiseOtherwise = true ↔ s.seq.state = .closed ∧ s.seq.minClosed = some .elapsed ∧
     s.approach.demand = false ∧ s.approach.blocker = false ∧ (∀ i, (s.boom i).state ≠ .stopped) ∧ s.out.major = false ∧
     s.mon.supply ≠ .low ∧ s.mon.mode = .normal) ∧
  (∀ s : State, s.disagreeing = true ↔ s.cfg.dual = true ∧ s.raiseOtherwise = true ∧ (∀ l, (s.lane l).contact = .present) ∧
     (((s.lane .a).consent ≠ none ∧ (s.lane .b).consent = none) ∨ ((s.lane .a).consent = none ∧ (s.lane .b).consent ≠ none))) ∧
  (∀ s t : State, step s = .next t →
     let supervised := fun u : State => (u.stances.disagreement ≠ none ↔ u.disagreeing = true)
     (StartUpShape s → supervised s → supervised t) ∧
     (s.stances.disagreement = none → ∀ d, t.stances.disagreement = some d → d = ⟨t.now, false⟩) ∧
     (∀ d e, s.stances.disagreement = some d → t.stances.disagreement = some e → e.since = d.since ∧
       ((∀ dt rest, s.pending ≠ .laneDisagreeExpiry dt :: rest) → e = d)))

/-- CONSENT (R90, R91, R92, R111): refused, in this order, with REFUSED-STATE outside CLOSED, with REFUSED-STALE for another
closure number, and with REFUSED-STATE while the lane's own hold is held, a standing consent being kept; otherwise the lane's
consent becomes the number and the time of the request, and stands after it unless demand appears or the sequencer leaves
CLOSED in the event: with nothing that calls for FAILED-CLOSED it enters RAISING exactly if raise is then permitted. Every
reply carries the closure number and whether consent is complete, judged on the stances after the request (log 16). -/
def Obligations.ConsentResult : Prop :=
  ∀ (dt : Nat) (p : Port) (l : Lane) (tag : Octet) (n : Half) (s : State), p.lane = some l →
    s.permits .consent p = true →
    let c : Instr := .consent dt p tag n
    let asked := s.asked dt .consent p (half n)
    let given := asked.setLane l { asked.lane l with consent := some ⟨n, (s.advance dt).now⟩ }
    let answer := fun (o : ReplyOutcome) (m : State) =>
      m.replied p tag .consent o (half s.seq.closure ++ [octet (flag m.consentComplete)])
    (s.seq.state ≠ .closed → AnswersAlone p c s (answer .refusedState asked)) ∧
    (s.seq.state = .closed → n ≠ s.seq.closure → AnswersAlone p c s (answer .refusedStale asked)) ∧
    (s.seq.state = .closed → n = s.seq.closure → (s.lane l).hold = true → AnswersAlone p c s (answer .refusedState asked)) ∧
    (s.heard p = true → s.seq.state ≠ .closed ∨ n ≠ s.seq.closure ∨ (s.lane l).hold = true →
      ∃ t, exec c s = .next t ∧ ∀ j, (t.lane j).consent = (s.lane j).consent) ∧
    (s.seq.state = .closed → n = s.seq.closure → (s.lane l).hold = false →
      ∃ t, exec c s = .next t ∧ EventFrame (answer .done given) t ∧
        (t.seq.state = .closed → s.approach.demand = true ∨ t.approach.demand = false →
          (t.lane l).consent = some ⟨n, (s.advance dt).now⟩) ∧
        (t.seq.state ≠ .closed ∨ (s.approach.demand = false ∧ t.approach.demand = true) → ∀ j, (t.lane j).consent = none) ∧
        (s.sound = true → (t.seq.state = .raising ↔ s.seq.minClosed = some .elapsed ∧ asked.demandNow = false ∧
          asked.blockerNow = false ∧ s.out.lamps.major = false ∧ s.mon.supply ≠ .low ∧ s.mon.mode = .normal ∧
          given.consentComplete = true)))

/-- AGREE-RESET (R95): a section that is not used is refused with REFUSED-RANGE and one that is not DISTURBED with
REFUSED-STATE, the agreement standing; otherwise the lane's agreement becomes the section and the time of the request. -/
def Obligations.AgreeResetResult : Prop :=
  ∀ (dt : Nat) (p : Port) (l : Lane) (tag a : Octet) (s : State), p.lane = some l → s.permits .agreeReset p = true →
    let asked := s.asked dt .agreeReset p [a]
    ((∀ x : SectionId, a.toNat = x.val → (s.sect x).place = none) →
      AnswersAlone p (.agreeReset dt p tag a) s (asked.replied p tag .agreeReset .refusedRange [])) ∧
    (∀ x : SectionId, a.toNat = x.val → (s.sect x).place ≠ none → (s.sect x).state ≠ .disturbed →
      AnswersAlone p (.agreeReset dt p tag a) s (asked.replied p tag .agreeReset .refusedState [])) ∧
    (∀ x : SectionId, a.toNat = x.val → (s.sect x).place ≠ none → (s.sect x).state = .disturbed →
      AnswersAlone p (.agreeReset dt p tag a) s
        ((asked.setLane l { asked.lane l with agreement := some ⟨x, (s.advance dt).now⟩ }).replied
          p tag .agreeReset .done []))

/-- PERMIT-MAINTENANCE and WITHDRAW-PERMIT, ENTER-MAINTENANCE and LEAVE-MAINTENANCE (R97, R121, R122, R98, R92, R115, R118): the
permit is granted or made absent, and a withdrawal that finds maintenance active ends it. Entry needs the permit and a road
CLOSED or FAILED-CLOSED, else REFUSED-STATE; it sets the mode and maintenance active and drops every consent. The end of
maintenance makes the mode NORMAL, clears maintenance active and the configuration mark, and ends the tests; START and CONFIG
leave the cause set, which then holds BOOM exactly if a boom is STOPPED and LAMP if it was held with the major lamp condition
present; and a FAILED-CLOSED road whose set is then empty with all four booms DOWN is CLOSED in the event, and else stays, under
the same closure number. -/
def Obligations.MaintenanceResult : Prop :=
  let ended := fun s t : State => t.seq.configMark = false ∧ t.seq.causes.start = false ∧ t.seq.causes.config = false ∧
    (t.seq.causes.boom = true ↔ ∃ i, (s.boom i).state = .stopped) ∧
    (s.seq.state = .closed ∨ s.seq.state = .failedClosed → s.out.major = s.out.lamps.major →
      t.seq.causes.lamp = (s.seq.causes.lamp && s.out.major)) ∧
    (s.seq.state = .failedClosed → t.seq.closure = s.seq.closure ∧
      t.seq.state = if t.noCause = true ∧ t.out.booms.allDown = true then .closed else .failedClosed)
  (∀ (dt : Nat) (tag : Octet) (s : State),
     (s.permits .permitMaintenance .signaller = true → exec (.permitMaintenance dt .signaller tag) s = .next
       ({ s.asked dt .permitMaintenance .signaller [] with stances := { s.stances with permit := true } }.replied
         .signaller tag .permitMaintenance .done [])) ∧
     (s.permits .withdrawPermit .signaller = true → s.stances.maintenance = false →
       exec (.withdrawPermit dt .signaller tag) s = .next
         ({ s.asked dt .withdrawPermit .signaller [] with stances := { s.stances with permit := false } }.replied
           .signaller tag .withdrawPermit .done [])) ∧
     (s.permits .withdrawPermit .signaller = true → s.stances.maintenance = true →
       ∃ t, exec (.withdrawPermit dt .signaller tag) s = .next t ∧ t.mon = { s.mon with mode := .normal } ∧
         t.stances.permit = false ∧ t.stances.maintenance = false ∧ ended s t ∧
         (∀ i, (t.boom i).source = .sequencer) ∧ t.out.lampTest = none ∧
         (t.port .signaller).reply = some (replyFrame tag 19 .done []) ∧
         t.heads = s.heads ∧ t.sections = s.sections ∧ t.store = s.store)) ∧
  (∀ (dt : Nat) (tag : Octet) (s : State),
     (s.permits .enterMaintenance .service = true → s.stances.permit = true →
       s.seq.state = .closed ∨ s.seq.state = .failedClosed →
       ∃ t, exec (.enterMaintenance dt .service tag) s = .next t ∧ t.mon = { s.mon with mode := .maintenance } ∧
         t.stances.maintenance = true ∧ t.stances.combinedHold = true ∧ t.approach.demand = true ∧
         (∀ l, (t.lane l).consent = none) ∧ t.seq.closure = s.seq.closure ∧
         (t.port .service).reply = some (replyFrame tag 20 .done []) ∧
         t.heads = s.heads ∧ t.sections = s.sections ∧ t.store = s.store) ∧
     (s.permits .enterMaintenance .service = true →
       s.stances.permit = false ∨ (s.seq.state ≠ .closed ∧ s.seq.state ≠ .failedClosed) →
       exec (.enterMaintenance dt .service tag) s = .next
         ((s.asked dt .enterMaintenance .service []).replied .service tag .enterMaintenance .refusedState [])) ∧
     (s.permits .leaveMaintenance .service = true →
       ∃ t, exec (.leaveMaintenance dt .service tag) s = .next t ∧ t.mon = { s.mon with mode := .normal } ∧
         t.stances.maintenance = false ∧ t.stances.permit = s.stances.permit ∧ ended s t ∧
         (∀ i, (t.boom i).source = .sequencer) ∧ t.out.lampTest = none ∧
         (t.port .service).reply = some (replyFrame tag 21 .done []) ∧
         t.heads = s.heads ∧ t.sections = s.sections ∧ t.store = s.store))

/-! ## Movements and sections -/

/-- What the approach timer makes of a change of a movement (R57, R62 to R66, R70 to R72, R76). The governing entry is the
toward entry of the foremost approach of the span that matches the direction, else of the section at the front. A movement with
an axle in an island is CROSSING; one with none, and no matching approach in its span or a governing entry without AUTO, is
LEAVING; else a new record from outside, timed and with a speed, is ARRIVING, due after the travel time of the approach length
at its entry speed, taken as 5 km/h when below 5, less minimum warning and amber time, and at once DUE where that leaves
nothing; any other new record is DUE; an ARRIVING movement stays so while its entry is TIMED and no entry of its span is
stripped; a STANDING one while no passage is attributed to it; and every other movement is DUE. The record in the slot takes
that state, the timing fields of the entry into it, and nothing else; a state that stands keeps them. An entry into CROSSING is
a short warning when warned-at is absent or less than the island's minimum warning before it, and a movement overstays in DUE
past the maximum approach time. That a warned-at later than the passage is short is the model's reading (log 13), and that a
clear comes before a raise its choice (log 7). -/
def Obligations.MovementStates : Prop :=
  ∀ (s : State) (k : SlotId) (m : Movement) (c : Change),
    let sections := m.span.map SpanEntry.sect
    let matching := fun x : SectionId => ∃ e side, (s.sect x).place = some e ∧ e.role = .approach side ∧ side.toward = m.dir
    let island := fun x : SectionId => ∃ e, (s.sect x).place = some e ∧ e.role = .island
    let toward := (∃ x, x ∈ sections ∧ matching x) ∧ s.cfg.auto (s.governingEntry m) = true
    let timed := s.cfg.timed (s.governingEntry m)
    let profile := s.governingProfile m
    let st := s.stateAfter m c
    (∀ front x back, sections = front ++ x :: back → matching x → (∀ y, y ∈ front → ¬matching y) →
      s.governingEntry m = ConfigImage.mapIndex x m.dir) ∧
    (∀ x back, sections = x :: back → (∀ y, y ∈ sections → ¬matching y) → s.governingEntry m = ConfigImage.mapIndex x
      (match (s.sect x).place.map Place.role with
        | some (.approach side) => side.toward
        | _ => m.dir)) ∧
    profile = s.cfg.profileAt (s.governingEntry m) ∧
    ((∃ x, x ∈ sections ∧ island x) → st = .crossing) ∧
    ((∀ x, x ∈ sections → ¬island x) → ¬toward → st = .leaving) ∧
    ((∀ x, x ∈ sections → ¬island x) → toward →
      (c.fresh = true →
        (∀ v, m.origin = .outer → m.entrySpeed = some v → timed = true →
          let delay := profile.length.toNat * 3600 / (if v < 5 then 5 else v) -
            (profile.minimumWarning.toNat * 1000 + s.cfg.amberMs)
          (delay = 0 → st = .due) ∧
          (delay ≠ 0 → st = .arriving ∧ s.firstDueTime m c.time = some (after c.time delay))) ∧
        (m.origin ≠ .outer ∨ m.entrySpeed = none ∨ timed = false → st = .due)) ∧
      (c.fresh = false → st = match m.state with
        | .arriving => if timed = true ∧ c.stripped = false then .arriving else .due
        | .standing => if c.passage = true then .due else .standing
        | .due | .crossing | .leaving => .due)) ∧
    (∀ front x back, sections = front ++ x :: back → island x → (∀ y, y ∈ front → ¬island y) →
      (s.shortWarned m c.time = true ↔ ∀ w, m.warnedAt = some w → reached c.time (after w
        ((s.cfg.profileAt (ConfigImage.mapIndex x m.dir)).minimumWarning.toNat * 1000)) = false)) ∧
    (s.overstayed m = true ↔ m.state = .due ∧ ∃ d, m.dueSince = some d ∧
      profile.maximumApproach.toNat * 1000 < since s.now d) ∧
    (s.slot k = some m → (c.fresh = true → m.warnedAt = none) →
      let before := if c.fresh = true then none else some m
      let t := s.recompute k c
      t = { s with tracker := t.tracker, faults := t.faults } ∧ (∀ j, j ≠ k → t.slot j = s.slot j) ∧
      (c.fresh = false → c.passage = false → st = m.state → t = s) ∧
      ∃ n, t.slot k = some n ∧ n.state = st ∧ Timed s before n c.time ∧
        n.record = { m.record with
          state := n.state, dueTime := n.dueTime, dueSince := n.dueSince, warnedAt := n.warnedAt } ∧
        (s.mon.mode ≠ .starting → c.fresh = true ∨ c.passage = true ∨ st ≠ m.state →
          t.faults = s.faultsHanded before n c.time))

/-- DEPART and REOPEN-STANDING (R75, R73, R64, R65, R70): number 0 is refused with REFUSED-RANGE, and a number that no live
movement holds with REFUSED-STATE. DEPART refuses a movement that is not STANDING with REFUSED-STATE; a STANDING movement still
TOWARD becomes DUE since the time of the request with warned-at from the red start, and one that is AWAY becomes LEAVING.
REOPEN-STANDING takes a DUE movement wholly in one section whose toward entry has HALT, overdue by its governing profile: it
becomes STANDING with DUE-since absent and warned-at kept, its LONG-APPROACH cleared; a movement that fails one of the three
conditions is refused with REFUSED-STATE. A movement is overdue when the time since its DUE-since exceeds the travel time of
its governing profile at its entry speed, taken as 5 km/h when below 5, plus the halt overdue grace; with no entry speed, the
grace plus 60 s. -/
def Obligations.DepartAndReopenResult : Prop :=
  (∀ (dt : Nat) (p : Port) (tag a : Octet) (s : State), s.permits .depart p = true →
     let c : Instr := .depart dt p tag a
     let asked := s.asked dt .depart p [a]
     (a = 0 → AnswersAlone p c s (asked.replied p tag .depart .refusedRange [])) ∧
     (a ≠ 0 → s.slotOf a.toNat = none → AnswersAlone p c s (asked.replied p tag .depart .refusedState [])) ∧
     (∀ k m, a ≠ 0 → s.slotOf a.toNat = some k → s.slot k = some m →
       (m.state ≠ .standing → AnswersAlone p c s (asked.replied p tag .depart .refusedState [])) ∧
       (m.state = .standing → s.situation m = .toward →
         let due : Movement := { m with
           state := .due, dueTime := none, dueSince := some (s.advance dt).now, warnedAt := s.seq.redStart
           longRaised := false }
         ∃ t, exec c s = .next t ∧ EventFrame ((asked.setSlot k (some due)).replied p tag .depart .done []) t ∧
           t.slot k = some { due with warnedAt := warnedFrom s t }) ∧
       (m.state = .standing → s.situation m = .away →
         let left : Movement := { m with state := .leaving, dueTime := none, dueSince := none }
         ∃ t, exec c s = .next t ∧ EventFrame ((asked.setSlot k (some left)).replied p tag .depart .done []) t ∧
           t.slot k = some left))) ∧
  (∀ (dt : Nat) (p : Port) (tag a : Octet) (s : State), s.permits .reopenStanding p = true →
     let c : Instr := .reopenStanding dt p tag a
     let asked := s.asked dt .reopenStanding p [a]
     (a = 0 → AnswersAlone p c s (asked.replied p tag .reopenStanding .refusedRange [])) ∧
     (a ≠ 0 → s.slotOf a.toNat = none → AnswersAlone p c s (asked.replied p tag .reopenStanding .refusedState [])) ∧
     (∀ k m, a ≠ 0 → s.slotOf a.toNat = some k → s.slot k = some m →
       (m.state = .due → s.haltedAlone m = true → (s.advance dt).overdue m = true →
         let stood : Movement := { m with state := .standing, dueTime := none, dueSince := none }
         ∃ t, exec c s = .next t ∧ EventFrame (((asked.setSlot k (some stood)).clear .longApproach
             (.movement m.number)).replied p tag .reopenStanding .done []) t ∧
           t.slot k = some stood) ∧
       (m.state ≠ .due ∨ s.haltedAlone m = false ∨ (s.advance dt).overdue m = false →
         AnswersAlone p c s (asked.replied p tag .reopenStanding .refusedState [])))) ∧
  (∀ (s : State) (m : Movement) (t : Time), m.dueSince = some t →
     let e := s.governingProfile m
     (∀ v, m.entrySpeed = some v → (s.overdue m = true ↔
       since s.now t > e.length.toNat * 3600 / (if v < 5 then 5 else v) + e.haltGrace.toNat * 1000)) ∧
     (m.entrySpeed = none → (s.overdue m = true ↔ since s.now t > e.haltGrace.toNat * 1000 + 60000)))

/-- Every step keeps the movement table in agreement with the section records (R22, R40 to R43): numbers from 1 to 255, no two
the same; spans not empty, no section twice and an axle in each entry; each section's list exactly the movements whose spans
name it, none twice, and its count the sum of the axles they hold there; in STARTING the table empty (R59). The premises are
the shapes of the section records (R18) and of start-up (R192), which every step keeps too. -/
def Obligations.MovementTableKept : Prop :=
  ∀ s t, SectionsShaped s → StartUpShape s → TableShape s → step s = .next t → TableShape t

/-- RESET-SECTION (R30, R31, R32, R35, R96): an unused section or another kind is refused with REFUSED-RANGE; a section that is
not DISTURBED, or one of whose end heads is FAILED, and a DIRECT without the agreements, with REFUSED-STATE. An accepted SWEEP
moves the section to RESTORING, its cause kept; an accepted DIRECT to CLEAR, with RESTORED queued and its
SECTION-DISTURBED cleared. Either drops the agreements that name the section. The agreements are given when both lanes in DUAL,
Lane A alone in SINGLE, carry one that names the section and was given within the last 30 s; that one given exactly 30 s ago
still counts is the model's reading (log 39). -/
def Obligations.ResetSectionResult : Prop :=
  (∀ (s : State) (x : SectionId), s.agreed x = true ↔ ∀ l : Lane, (l = .a ∨ s.cfg.dual = true) →
    ∃ g, (s.lane l).agreement = some g ∧ g.sect = x ∧ since s.now g.given ≤ 30000) ∧
  ∀ (dt : Nat) (p : Port) (tag a : Octet) (s : State), s.permits .resetSection p = true →
    (∀ kind : Octet, ¬(p = .service ∧ kind = 1) →
      (∀ x : SectionId, a.toNat = x.val → (s.sect x).place = none) ∨ 2 ≤ kind.toNat →
      AnswersAlone p (.resetSection dt p tag a kind) s
        ((s.asked dt .resetSection p [a, kind]).replied p tag .resetSection .refusedRange [])) ∧
    (∀ (x : SectionId) (e : Place), a.toNat = x.val → (s.sect x).place = some e →
      (∀ kind : Octet, kind.toNat < 2 → ¬(p = .service ∧ kind = 1) →
        (s.sect x).state ≠ .disturbed ∨ (s.head e.aHead).failure ≠ none ∨ (s.head e.bHead).failure ≠ none →
        AnswersAlone p (.resetSection dt p tag a kind) s
          ((s.asked dt .resetSection p [a, kind]).replied p tag .resetSection .refusedState [])) ∧
      ((s.sect x).state = .disturbed → (s.head e.aHead).failure = none → (s.head e.bHead).failure = none →
        ∃ t, exec (.resetSection dt p tag a 0) s = .next t ∧
          t.sect x = { s.sect x with state := .restoring, restore := some .sweep, sweepEnd := none } ∧
          (∀ y, y ≠ x → t.sect y = s.sect y) ∧
          (∀ l g, (t.lane l).agreement = some g → g.sect ≠ x) ∧
          (t.port p).reply = some (replyFrame tag 16 .done []) ∧ t.heads = s.heads ∧ t.store = s.store ∧
          t.mon = s.mon) ∧
      (p = .signaller → (s.sect x).state = .disturbed → (s.head e.aHead).failure = none →
        (s.head e.bHead).failure = none → (s.advance dt).agreed x = true →
        ∃ t, exec (.resetSection dt p tag a 1) s = .next t ∧
          t.sect x = { s.sect x with
            state := .clear, count := 0, cause := none, restore := none, sweepEnd := none, list := [] } ∧
          (s.faults.queue.length < 24 → .restored x e.track .direct ∈ t.faults.queue) ∧
          (FaultsDistinct s.faults →
            ∀ q f, t.faults.find .sectionDisturbed (.sect x) = some (q, f) → f.state = FaultState.cleared) ∧
          (∀ y, y ≠ x → t.sect y = s.sect y) ∧
          (∀ l g, (t.lane l).agreement = some g → g.sect ≠ x) ∧
          (t.port p).reply = some (replyFrame tag 16 .done []) ∧ t.heads = s.heads ∧ t.store = s.store ∧
          t.mon = s.mon) ∧
      (p = .signaller → (s.sect x).state = .disturbed → (s.advance dt).agreed x = false →
        AnswersAlone p (.resetSection dt p tag a 1) s
          ((s.asked dt .resetSection p [a, 1]).replied p tag .resetSection .refusedState [])))

/-! ## Maintenance -/

/-- BOOM-TEST (R145, R128, R129): another boom or direction is refused with REFUSED-RANGE; then traffic and a STOPPED boom with
REFUSED-STATE, and a test on another boom with BUSY; otherwise the boom comes under test with the order of the direction. The
directions are coded RAISE 0 and LOWER 1 (log 18). That a boom that already rests DOWN under LOWER comes and stays under test
by a test of LOWER is the model's reading (log 15). -/
def Obligations.BoomTestResult : Prop :=
  ∀ (dt : Nat) (tag a d : Octet) (s : State), s.permits .boomTest .service = true →
    let asked := s.asked dt .boomTest .service [a, d]
    (3 < a.toNat ∨ 1 < d.toNat → AnswersAlone .service (.boomTest dt .service tag a d) s
      (asked.replied .service tag .boomTest .refusedRange [])) ∧
    (∀ i o, BoomId.ofCode a = some i → Order.ofCode d = some o →
      (s.approach.traffic = true ∨ (s.boom i).state = .stopped → AnswersAlone .service (.boomTest dt .service tag a d) s
        (asked.replied .service tag .boomTest .refusedState [])) ∧
      (s.approach.traffic = false → (s.boom i).state ≠ .stopped → (∃ j, j ≠ i ∧ (s.boom j).source = .test) →
        AnswersAlone .service (.boomTest dt .service tag a d) s (asked.replied .service tag .boomTest .busy [])) ∧
      (s.approach.traffic = false → s.trafficNow = false → (s.boom i).state ≠ .stopped →
        (∀ j, j ≠ i → (s.boom j).source ≠ .test) →
        let tested := (({ s.boom i with source := .test } : Boom).takeOrder o (s.uptime + dt) s.cfg.travelMs)
        ∃ t, exec (.boomTest dt .service tag a d) s = .next t ∧ t.boom i = tested ∧
          EventFrame ((asked.setBoom i tested).replied .service tag .boomTest .done []) t))

/-- While outputs are driven a boom's lower drive, raise drive and hold are those of the table of R126 for its state, and all
three are off while they are not (R148). A boom takes a change of order as R129 gives: from UP or DOWN it moves at once, or
settles to the end of its rest mark's second; in motion it settles for 1.0 s; in SETTLING the pending direction is replaced;
STOPPED records the order alone. An equal order changes nothing. -/
def Obligations.BoomTakesOrder : Prop :=
  (∀ (s : State) (i : BoomId), (s.lowerDrive i, s.raiseDrive i, s.holdApplied i) =
    if s.out.driven = false then (false, false, false)
    else match (s.boom i).state with
      | .up => (false, false, true)
      | .lowering => (true, false, false)
      | .down => (false, false, false)
      | .raising => (false, true, true)
      | .settling => (false, false, true)
      | .stopped => (false, false, false)) ∧
  ∀ (b : Boom) (o : Order) (u : Nat) (n : Nat),
    let now := clockAt u
    (b.order = o → b.takeOrder o u n = b) ∧
    (b.order ≠ o → (b.takeOrder o u n).order = o ∧
      (b.state = .up → o = .lower → b.restMark = none → b.takeOrder o u n =
        { b with order := o, orderSince := u, state := .lowering, pending := none, settleExpiry := none
                 travelExpiry := some (after now n) }) ∧
      (b.state = .down → o = .raise → b.restMark = none → b.takeOrder o u n =
        { b with order := o, orderSince := u, state := .raising, pending := none, settleExpiry := none
                 travelExpiry := some (after now n) }) ∧
      (∀ t, (b.state = .up ∧ o = .lower) ∨ (b.state = .down ∧ o = .raise) → b.restMark = some t →
        b.takeOrder o u n =
          { b with order := o, orderSince := u, state := .settling, pending := some o
                   settleExpiry := some (after t 1000), travelExpiry := none }) ∧
      ((b.state = .lowering ∧ o = .raise) ∨ (b.state = .raising ∧ o = .lower) → b.takeOrder o u n =
        { b with order := o, orderSince := u, state := .settling, pending := some o
                 settleExpiry := some (after now 1000), travelExpiry := none }) ∧
      (b.state = .settling → b.takeOrder o u n = { b with order := o, orderSince := u, pending := some o }) ∧
      (b.state = .stopped → b.takeOrder o u n = { b with
        order := o, orderSince := u
        recoverySince := if o = .lower ∧ b.downAlone = true then some (b.recoverySince.getD now) else none }))

/-- LAMP-TEST and LAMP_TEST_END (R147): another channel is refused with REFUSED-RANGE, a running test on any channel with
BUSY; otherwise the channel is under test for 5 s; at the end it is under test no longer. Before the end, and with no test
under way, LAMP_TEST_END has no effect but the passing of time. That the end acts when its command comes at or after its time is
the model's reading (log 3). -/
def Obligations.LampTestResult : Prop :=
  ∀ (dt : Nat) (tag a : Octet) (s : State),
    (s.permits .lampTest .service = true → 5 < a.toNat → AnswersAlone .service (.lampTest dt .service tag a) s
      ((s.asked dt .lampTest .service [a]).replied .service tag .lampTest .refusedRange [])) ∧
    (∀ c, s.permits .lampTest .service = true → Channel.ofCode a = some c → s.out.lampTest ≠ none →
      AnswersAlone .service (.lampTest dt .service tag a) s
        ((s.asked dt .lampTest .service [a]).replied .service tag .lampTest .busy [])) ∧
    (∀ c, s.permits .lampTest .service = true → Channel.ofCode a = some c → s.out.lampTest = none →
      ∃ t, exec (.lampTest dt .service tag a) s = .next t ∧
        t.out.lampTest = some ⟨c, after (s.advance dt).now 5000⟩ ∧ (t.lamp c).underTest = true ∧
        (s.out.driven = true → (t.lamp c).lit = true) ∧ (∀ d, d ≠ c → (t.lamp d).underTest = (s.lamp d).underTest) ∧
        (∀ d, (t.lamp d).condition = (s.lamp d).condition) ∧ t.mon = s.mon ∧
        (t.port .service).reply = some (replyFrame tag 23 .done [])) ∧
    (∀ x, s.mon.held = false → s.out.lampTest = some x → reached (s.advance dt).now x.expiry = true →
      ∃ t, exec (.lampTestEnd dt) s = .next t ∧ t.out.lampTest = none ∧ (t.lamp x.channel).underTest = false ∧
        (∀ d, d ≠ x.channel → (t.lamp d).underTest = (s.lamp d).underTest) ∧
        (∀ d, (t.lamp d).condition = (s.lamp d).condition) ∧ t.heads = s.heads ∧ t.sections = s.sections ∧
        t.mon = s.mon) ∧
    (s.mon.held = false → (∀ x, s.out.lampTest = some x → reached (s.advance dt).now x.expiry = false) →
      exec (.lampTestEnd dt) s = .next (s.advance dt))

/-- RESTART (R189, R193, R170, R172, R191, R148, R192, R15, R37, R59, R69, R100, R123): the fault records, the overflow record
among them, masks, attention modes, permit, closure number, and head failures and partial counts are kept, each record carried
over with its times at 0; every reply and the rest of the crossing's record are lost; the supply state is taken afresh from the
sense; the outputs take effect, with the values of R148's table, and the image read begins at once, at time 0 of the crossing
clock. That every contact is OPEN when conditioning begins, so that every boom is LOWERING, is the model's choice (log 10). -/
def Obligations.RestartResult : Prop :=
  ∀ (dt : Nat) (tag : Octet) (s : State), s.permits .restart .service = true →
    ∃ t, exec (.restart dt .service tag) s = .next t ∧ t.uptime = 0 ∧ t.mon.mode = .starting ∧
      t.mon.resetKind = .restart ∧ t.mon.previousKind = some s.mon.resetKind ∧ t.mon.stabilisation = none ∧
      t.seq.state = .failedClosed ∧ t.seq.closure = s.seq.closure ∧ t.seq.causes = ⟨false, false, true, false⟩ ∧
      t.seq.redStart = some 0 ∧ t.stances = { State.reset.stances with permit := s.stances.permit } ∧
      t.sections = State.reset.sections ∧ t.tracker = State.reset.tracker ∧
      (∀ h, t.head h = { Head.initial with failure := (s.head h).failure, partials := (s.head h).partials }) ∧
      t.faults.masks = s.faults.masks ∧ t.faults.idCounter = s.faults.idCounter ∧
      t.faults.clearedOrder = s.faults.clearedOrder ∧ t.faults.sticky = 0 ∧ t.faults.queue = [] ∧
      t.faults.overflowCount = 0 ∧
      (∀ q : Fin 31, t.faults.table[q] = s.faults.table[q].map fun r =>
        { r with firstSeen := 0, lastSeen := 0, carriedOver := true }) ∧
      t.faults.overflow = (s.faults.overflow.map fun r =>
        { r with firstSeen := 0, lastSeen := 0, carriedOver := true }) ∧
      (∀ q : Port, t.port q = ⟨none, (s.port q).mode, false, none, []⟩) ∧ t.ports.window = none ∧
      t.store.image = s.store.image ∧ t.store.imageValid = (s.store.imageValid && !s.store.busy) ∧
      t.store.active = none ∧ t.store.state = .reading 100 ∧ t.out.driven = true ∧
      t.mon.held = false ∧ t.mon.sense = s.mon.sense ∧ (22000 < s.mon.sense → t.mon.supply = .good) ∧
      (20500 ≤ s.mon.sense → s.mon.sense ≤ 22000 → t.mon.supply = .warn) ∧ (s.mon.sense < 20500 → t.mon.supply = .low) ∧
      OutputsBegun (fun _ => { Boom.off with upContact := ⟨false, 0⟩, downContact := ⟨false, 0⟩ }) t ∧
      (∀ i, (t.boom i).order = .lower ∧ (t.boom i).source = .sequencer ∧ (t.boom i).state = .lowering)

/-! ## The configuration store -/

/-- LOAD-WINDOW (R183): a table code above 5, a first entry above the last, or a last entry not below the table's entry count
is refused with REFUSED-RANGE, and any while a write is in flight with BUSY; taken, it opens the load window on the table with
those entries and the position at the first, replacing any window open before. A refused one leaves the window closed. It is
taken from the service port in UNCONFIGURED and MAINTENANCE. -/
def Obligations.LoadWindowResult : Prop :=
  (∀ p, RequestKind.loadWindow.modes p = if p = .service then [.unconfigured, .maintenance] else []) ∧
  TableId.sections.entries = 10 ∧ TableId.map.entries = 21 ∧ TableId.profiles.entries = 16 ∧ TableId.heads.entries = 12 ∧
  TableId.outputs.entries = 8 ∧ TableId.sequence.entries = 1 ∧
  ∀ (dt : Nat) (tag a b c : Octet) (s : State), s.permits .loadWindow .service = true →
    let asked := s.asked dt .loadWindow .service [a, b, c]
    let answer := fun (m : State) (o : ReplyOutcome) =>
      exec (.loadWindow dt .service tag a b c) s = .next (m.replied .service tag .loadWindow o [])
    asked.ports.window = none ∧ (5 < a.toNat → answer asked .refusedRange) ∧
    (∀ t, TableId.ofCode a = some t →
      (c.toNat < b.toNat ∨ t.entries ≤ c.toNat → answer asked .refusedRange) ∧
      (b.toNat ≤ c.toNat → c.toNat < t.entries →
        (s.store.busy = true → answer asked .busy) ∧
        (s.store.busy = false → answer { asked with
          ports := { asked.ports with window := some ⟨t, b.toNat, c.toNat, b.toNat⟩ } } .done)))

/-- LOAD-DATA and LOAD-CONTINUE (R184, R172): refused with BUSY while a write is in flight, then with REFUSED-STATE without an
open window on the table; taken, the entries are written in order into the staging copy, from the window's first entry or from
its position, while the position is not above its last entry; the reply carries the numbers written and ignored, the position
moves on, and every other entry of the staging copy stands. Tables, entry sizes and fields are those of R181. -/
def Obligations.LoadEntriesResult : Prop :=
  TableId.sections.size = 6 ∧ TableId.map.size = 2 ∧ TableId.profiles.size = 11 ∧ TableId.heads.size = 5 ∧
  TableId.outputs.size = 8 ∧ TableId.sequence.size = 12 ∧
  (∀ t, TableId.ofCode (coded [.sections, .map, .profiles, .heads, .outputs, .sequence] t) = some t) ∧
  ∀ (dt : Nat) (tag a b : Octet) (l : List Octet) (k : RequestKind) (s : State), k = .loadData ∨ k = .loadContinue →
    s.permits k .service = true → k.formHolds (a :: b :: l) = true → l.length ≤ 252 →
    let c : Instr := if k = .loadData then .loadData dt .service tag a b l else .loadContinue dt .service tag a b l
    let asked := s.asked dt k .service (a :: b :: l)
    (s.store.busy = true → exec c s = .next (asked.replied .service tag k .busy [])) ∧
    (s.store.busy = false → (∀ w, s.ports.window = some w → TableId.ofCode a ≠ some w.table) →
      exec c s = .next (asked.replied .service tag k .refusedState [])) ∧
    (∀ w, s.store.busy = false → s.ports.window = some w → TableId.ofCode a = some w.table →
      let start := if k = .loadData then w.first else w.position
      let n := min b.toNat (w.last + 1 - start)
      ∃ image, exec c s = .next ({ asked with
          store := { s.store with staging := image }
          ports := { asked.ports with window := some { w with position := start + n } } }.replied .service tag k .done
            [octet n, octet (b.toNat - n)]) ∧
        (∀ i, i < w.table.entries → entryLayout image w.table i =
          if start ≤ i ∧ i < start + n then (l.drop ((i - start) * w.table.size)).take w.table.size
          else entryLayout s.store.staging w.table i) ∧
        (∀ t i, t ≠ w.table → entryLayout image t i = entryLayout s.store.staging t i))

/-- The eleven checks of COMMIT (R186, R19, R62, R63, R103, R125): a configuration passes exactly when none of them fails,
each as the table of R186 has it, and otherwise the number is that of the first that fails. The number is left open between 3
and 4 where two sections of a track begin at one head, which check 4 refuses. That a chain which comes back to one of its own
heads passes check 3 and fails check 4 is the model's reading (log 45), and that check 6 judges the profile index of entry 20
too is its reading (log 38). -/
def Obligations.ConfigurationChecks : Prop :=
  ∀ c : ConfigImage,
    let first := fun n => CheckFails c n ∧ ∀ m, m < n → ¬CheckFails c m
    (c.failedCheck = none ↔ ∀ n, ¬CheckFails c n) ∧
    (∀ n, n ≠ 3 → n ≠ 4 → (c.failedCheck = some n ↔ first n)) ∧
    ((∀ x y, UsedIn c x → UsedIn c y → c.sections[x].track = c.sections[y].track →
        c.sections[x].aHead = c.sections[y].aHead → x = y) →
      ∀ n, c.failedCheck = some n ↔ first n)

/-- COMMIT (R186, R187, R38, R49, R60, R80, R16, R86, R87, R96, R99, R115): BUSY while a write is in flight; a staging copy that
fails a check is refused with REFUSED-RANGE and the number of the first check that fails, as ConfigurationChecks gives it; an
accepted one becomes the active copy, a store write begins, and the mode is MAINTENANCE. Heads whose entry changes observe
afresh with no partials; a change of the topology empties the movement table, disturbs every used section with CONFIG, drops the
agreements, advances the generation number once, and takes the road to FAILED-CLOSED with the configuration mark set; without
one, sections and heads stand, and under new MAP or PROFILES tables every movement that is not STANDING takes the state of its
situation under them (R81). A change of the lane arrangement drops both lanes' consents and agreements and leaves Lane B
NOT-HEARD and empty, its 10 s limit running from the commit where it becomes DUAL (R99). Under a changed lane contact time a
PRESENT lane that takes part, and whose last contact is older than the new time, becomes LOST, its consent and agreement
dropped, its hold kept, and LANE-LOST raised (R86, R87): its record stands and was seen in this event, or it was counted in the
overflow record; the contact, the hold and the times of every other lane stand. The fault unit is that of these raises and
clears, in the order of log 7, the model's choice: on a change of the topology SHORT-WARNING and LONG-APPROACH of every
discarded movement are cleared, SECTION-DISTURBED is raised for every section used and cleared with the full faults for every
other; else the movements' own changes; then, to SINGLE, Lane B's faults are cleared, LANE-LOST is raised for each lane lost,
and CONFIG-INVALID is cleared. That a contact exactly as old as the new time does not yet lose the lane is the model's reading
(log 39). -/
def Obligations.CommitResult : Prop :=
  ∀ (dt : Nat) (tag : Octet) (s : State), s.permits .commit .service = true →
    let asked := s.asked dt .commit .service []
    let new := s.store.staging
    let topology : Bool := match s.store.active with
      | some c => c.sections != new.sections || c.heads != new.heads
      | none => true
    let timing : Bool := s.cfg.map != new.map || s.cfg.profiles != new.profiles ||
      s.cfg.sequence.amber != new.sequence.amber || s.cfg.sequence.compact != new.sequence.compact
    (s.store.busy = true → exec (.commit dt .service tag) s = .next (asked.replied .service tag .commit .busy [])) ∧
    (∀ n, s.store.busy = false → new.failedCheck = some n → exec (.commit dt .service tag) s = .next
      (asked.replied .service tag .commit .refusedRange [octet n])) ∧
    (s.store.busy = false → new.failedCheck = none →
      ∃ t, exec (.commit dt .service tag) s = .next t ∧
        t.store = { s.store with
          active := some new, state := .writing (after (s.advance dt).now 400), imageValid := false, imageAgrees := false } ∧
        t.mon = { s.mon with mode := .maintenance } ∧
        (t.port .service).reply = some (replyFrame tag 34 .done []) ∧
        (∀ h : HeadId, (s.store.active = none ∨ ∃ c, s.store.active = some c ∧ c.heads[h] ≠ new.heads[h]) →
          t.head h = { (s.head h).observe (s.uptime + dt) with partials := 0 }) ∧
        (∀ (h : HeadId) c, s.store.active = some c → c.heads[h] = new.heads[h] → t.head h = s.head h) ∧
        ((s.store.active = none ∨
            ∃ c, s.store.active = some c ∧ (c.sections ≠ new.sections ∨ c.heads ≠ new.heads)) →
          (∀ k, t.slot k = none) ∧ t.tracker.generation = s.tracker.generation + 1 ∧
          t.tracker.counter = s.tracker.counter ∧
          (∀ x : SectionId, t.sect x = match new.sections[x].place with
            | some p => ⟨some p, 0, .disturbed, some .config, none, none, []⟩
            | none => ⟨none, 0, .clear, none, none, none, []⟩) ∧
          (∀ l, (t.lane l).agreement = none) ∧ t.seq.configMark = true ∧ t.seq.causes.config = true ∧
          t.seq.state = .failedClosed) ∧
        (∀ c, s.store.active = some c → c.sections = new.sections → c.heads = new.heads →
          t.sections = s.sections ∧ t.heads = s.heads ∧ t.seq.configMark = s.seq.configMark ∧
          let under : State := { asked with store := { s.store with active := some new } }
          ∀ k m, s.slot k = some m → (t.slot k).map Movement.state = some
            (if (c.map ≠ new.map ∨ c.profiles ≠ new.profiles ∨ c.sequence.amber ≠ new.sequence.amber ∨
                c.sequence.compact ≠ new.sequence.compact) ∧ m.state ≠ .standing
             then under.stateAfter m ⟨false, false, false, under.now⟩ else m.state)) ∧
        (s.cfg.dual ≠ new.dual →
          (∀ l, (t.lane l).consent = none ∧ (t.lane l).agreement = none) ∧
          t.lane .b = ⟨.notHeard, none, if new.dual then some (s.advance dt).now else none, false, none, none⟩) ∧
        (let moved : FaultUnit :=
            if topology = true then s.faults.changed t.seconds (topologyFaults s new)
            else if timing = true then ((List.finRange 16).foldl (fun (u : State) k => match u.slot k with
              | some m => if m.state = .standing then u else u.recompute k ⟨false, false, false, u.now⟩
              | none => u) { asked with store := { s.store with active := some new } }).faults
            else s.faults;
          FaultFrame { s with faults := moved.changed t.seconds (laneAndConfigFaults s new (s.advance dt).now) } t) ∧
        ∀ l, l = .a ∨ s.cfg.dual = new.dual →
          let older := (l = .a ∨ new.dual = true) ∧ s.cfg.laneContactMs ≠ new.laneContactMs ∧
            (s.lane l).contact = .present ∧
            ∃ e, (s.lane l).lastContact = some e ∧ new.laneContactMs < since (s.advance dt).now e
          (older → t.lane l = { s.lane l with contact := .lost, consent := none, agreement := none } ∧
            FaultClass.inSet .lane t.faults.sticky = true ∧
            (FaultsDistinct s.faults → ClearedListed s.faults →
              (t.faults.find .laneLost (.lane l) = none → FaultClass.inSet .config t.faults.sticky = true) ∧
              ∀ q r, t.faults.find .laneLost (.lane l) = some (q, r) → r.state ≠ FaultState.cleared ∧ r.lastSeen = t.seconds)) ∧
          (¬older → t.lane l = { s.lane l with consent := (t.lane l).consent, agreement := (t.lane l).agreement } ∧
            ∀ c, s.store.active = some c → c.sections = new.sections → c.heads = new.heads → s.cfg.dual = new.dual →
              (t.lane l).agreement = (s.lane l).agreement))

/-- WRITE_COMPLETION and WRITE_EXPIRY (R188, R182): with success the image holds the active copy under a check value that
holds, and STORE-WRITE-FAILED is cleared; a failure, or the expiry, leaves the image not valid and raises STORE-WRITE-FAILED;
with no write in flight, or before the expiry, nothing but time moves. The check value is the model's free value (log 5); that
the image's contents stand after a failure is its choice (log 29), and that an expiry acts when its command comes at or after
its time, and not before, is its reading (log 3). -/
def Obligations.WriteEnds : Prop :=
  ∀ (dt : Nat) (s : State), s.mon.held = false →
    let now := s.advance dt
    let failed := ({ now with store := { s.store with state := .idle } } : State).raise .storeWriteFailed .configuration
    (s.store.busy = false → ∀ ok, exec (.writeCompletion dt ok) s = .next now) ∧
    (∀ c, s.store.busy = true → s.store.active = some c →
      Answers (.writeCompletion dt true) s (({ now with store := { s.store with
        state := .idle, image := c, imageCheck := Config.checkValue c, imageAgrees := true, imageValid := true } } :
          State).clear .storeWriteFailed .configuration)) ∧
    (s.store.busy = true → Answers (.writeCompletion dt false) s failed) ∧
    (∀ e, s.store.state = .writing e → reached now.now e = true → Answers (.writeExpiry dt) s failed) ∧
    (∀ e, s.store.state = .writing e → reached now.now e = false → exec (.writeExpiry dt) s = .next now) ∧
    ((∀ e, s.store.state ≠ .writing e) → exec (.writeExpiry dt) s = .next now)

/-! ## The fault table and the notice queue -/

/-- What a raise, a clear, a re-grade and an addition to the queue make of the whole fault and notice unit (R150 to R157, R159
to R161, R164, R165). Each kind has the class and severity of R151; in STARTING neither a raise nor a clear acts (log 23). A
raise with no record and a free position puts an ACTIVE record at the lowest free position, under the next id that no record
holds, and queues FAULT-RAISED. A repeat counts; one that names another severity re-grades; one of a CLEARED record makes it
ACTIVE with the severity named, takes it out of the cleared order and queues FAULT-RAISED. A clear makes an ACTIVE record
CLEARED, at the end of the cleared order, and takes an ACKNOWLEDGED one from the table, with FAULT-CLEARED queued for either;
the overflow record, where it stands, is cleared in the same way with a FAULT-CLEARED of its own. A notice about a MINOR record
of a masked class is not queued. With no position free the first record of the cleared order gives its place to the new one;
with none CLEARED the fault is counted in the overflow record, with FAULT-RAISED for that record. A re-grade to a higher
severity makes the record ACTIVE again; either re-grade queues FAULT-RAISED. PART-RESTARTED enters CLEARED, at the end of the
cleared order, first or repeated, with FAULT-RAISED and no FAULT-CLEARED. A raise sets the sticky flag of its class, a count in
the overflow record that of CONFIG besides. A full queue gives up its oldest MOVEMENT-PASSED, or counts the new notice; a
CROSSING-STATUS takes the place of the queued one, with its reset cause. A CLEARED record given up, as its movement number is
given to a new movement, leaves without a notice, so that the next raise finds none (R80, R153): the model's reading (log 42).
That an evicted record's id is released before the new one is drawn is the model's choice (log 47), and so is it that the
FAULT-CLEARED of the overflow record comes last (log 7). -/
def Obligations.FaultTableRules : Prop :=
  ∀ (u : FaultUnit) (t : BitVec 32) (k : FaultKind) (x : Subject) (sev : Severity),
    let stuck := fun (v : FaultUnit) (c : FaultClass) => ({ v with sticky := v.sticky ||| c.bit } : FaultUnit)
    let raised := fun n => u.worded k.cls sev (.faultRaised n k x sev t)
    let counted := fun (r : FaultRecord) => { r with lastSeen := t, occurrences := min 255 (r.occurrences + 1) }
    let without := fun p : Fin 31 => u.clearedOrder.filter (· ≠ p)
    let restarted := fun d n => ({
      id := n, kind := .partRestarted, severity := .minor, subject := .supply, state := .cleared, firstSeen := t, lastSeen := t
      occurrences := 1, carriedOver := false, detail := some d } : FaultRecord)
    (∃ e ∈ faultKinds, e.1 = k ∧ e.2.1 = k.cls ∧ ∀ v, e.2.2 = some v → k.severity = v) ∧
    (∀ (c : FaultClass) (m : ClassSet), c.inSet m = m.getLsbD (faultClasses.idxOf c)) ∧
    (∀ s : State, s.raise k x = s.raiseAt k x k.severity ∧ (s.mon.mode = .starting → s.raiseAt k x sev = s ∧ s.clear k x = s) ∧
      (s.mon.mode ≠ .starting → s.raiseAt k x sev = { s with faults := s.faults.raise s.seconds k x sev } ∧
        s.clear k x = { s with faults := s.faults.clear s.seconds k x })) ∧
    (∀ (v : FaultUnit) (c d : FaultClass), d.inSet (stuck v c).sticky = true ↔ d = c ∨ d.inSet v.sticky = true) ∧
    (∀ p, u.find k x = none → u.freePosition = some p →
      u.table[p] = none ∧ (∀ q : Fin 31, q < p → u.table[q] ≠ none) ∧ ∃ n, Drawn u n ∧
        u.raise t k x sev = FaultUnit.told { stuck u k.cls with
          table := u.table.set p (some ⟨n, k, sev, x, .active, t, t, 1, false, none⟩), idCounter := idAfter n } (raised n)) ∧
    (∀ p r, u.find k x = some (p, r) → r.state ≠ FaultState.cleared → r.severity = sev →
      u.raise t k x sev = { stuck u k.cls with table := u.table.set p (some (counted r)) }) ∧
    (∀ p r, u.find k x = some (p, r) → r.state = FaultState.cleared →
      u.raise t k x sev = FaultUnit.told { stuck u k.cls with
        table := u.table.set p (some { counted r with state := .active, severity := sev })
        clearedOrder := without p } (raised r.id)) ∧
    (∀ p r, u.find k x = some (p, r) → r.state = FaultState.cleared →
      u.giveUp k x = { u with table := u.table.set p none, clearedOrder := without p } ∧
      (FaultsDistinct u → (u.giveUp k x).find k x = none)) ∧
    (u.find k x = none ∨ (∃ p r, u.find k x = some (p, r) ∧ r.state ≠ FaultState.cleared) → u.giveUp k x = u) ∧
    (u.find k x = none → u.clear t k x = u) ∧
    (∀ p r, u.find k x = some (p, r) →
      let released := u.overflow.bind fun o => match o.state with
        | .active => some { o with state := .cleared }
        | .acknowledged => none
        | .cleared => some o
      let cleared := u.worded k.cls r.severity (.faultCleared r.id t) ++ match u.overflow with
        | some o => if o.state = FaultState.cleared then [] else u.worded o.kind.cls o.severity (.faultCleared o.id t)
        | none => []
      (r.state = FaultState.active → u.clear t k x = FaultUnit.told { u with
        table := u.table.set p (some { r with state := .cleared })
        clearedOrder := u.clearedOrder ++ [p], overflow := released } cleared) ∧
      (r.state = FaultState.acknowledged → u.clear t k x = FaultUnit.told { u with
        table := u.table.set p none, overflow := released } cleared) ∧
      (r.state = FaultState.cleared → u.clear t k x = u)) ∧
    (∀ q rest, u.find k x = none → u.freePosition = none → u.clearedOrder = q :: rest →
      ∃ n, Drawn { u with table := u.table.set q none } n ∧
        u.raise t k x sev = FaultUnit.told { stuck u k.cls with
          table := u.table.set q (some ⟨n, k, sev, x, .active, t, t, 1, false, none⟩), clearedOrder := rest
          idCounter := idAfter n } (raised n)) ∧
    (u.find k x = none → u.freePosition = none → u.clearedOrder = [] →
      let full := stuck (stuck u k.cls) .config
      (u.overflow = none → ∃ n, Drawn u n ∧
        u.raise t k x sev = FaultUnit.append { full with
          overflow := some ⟨n, .tableOverflow, .major, .faultTable, .active, t, t, 1, false, none⟩, idCounter := idAfter n }
            (.faultRaised n .tableOverflow .faultTable .major t)) ∧
      (∀ old, u.overflow = some old → u.raise t k x sev = FaultUnit.append { full with
        overflow := some { counted old with
          state := if old.state = FaultState.cleared then .active else old.state } }
            (.faultRaised old.id old.kind old.subject old.severity t))) ∧
    (∀ p r, u.find k x = some (p, r) → r.state ≠ FaultState.cleared → r.severity ≠ sev →
      let higher := r.severity.code < sev.code
      let graded := fun (r : FaultRecord) => { r with severity := sev, state := if higher then .active else r.state }
      u.regrade t k x sev = FaultUnit.told { (if higher then stuck u k.cls else u) with
        table := u.table.set p (some (graded r)) } (raised r.id) ∧
      u.raise t k x sev = FaultUnit.told { stuck u k.cls with
        table := u.table.set p (some (graded (counted r))) } (raised r.id)) ∧
    (u.find k x = none → u.regrade t k x sev = u) ∧
    (∀ p r, u.find k x = some (p, r) → r.state = FaultState.cleared ∨ r.severity = sev → u.regrade t k x sev = u) ∧
    (∀ d : ResetKind,
      (∀ p r, u.find .partRestarted .supply = some (p, r) →
        u.partRestarted t d = FaultUnit.told { stuck u .supply with
          table := u.table.set p (some { counted r with detail := some d, state := .cleared })
          clearedOrder := without p ++ [p] }
            (u.worded .supply r.severity (.faultRaised r.id .partRestarted .supply r.severity t))) ∧
      (∀ p, u.find .partRestarted .supply = none → u.freePosition = some p →
        ∃ n, Drawn u n ∧ u.partRestarted t d = FaultUnit.told { stuck u .supply with
          table := u.table.set p (some (restarted d n)), clearedOrder := u.clearedOrder ++ [p], idCounter := idAfter n }
            (u.worded .supply .minor (.faultRaised n .partRestarted .supply .minor t))) ∧
      (∀ q rest, u.find .partRestarted .supply = none → u.freePosition = none → u.clearedOrder = q :: rest →
        ∃ n, Drawn { u with table := u.table.set q none } n ∧ u.partRestarted t d = FaultUnit.told { stuck u .supply with
          table := u.table.set q (some (restarted d n)), clearedOrder := rest ++ [q], idCounter := idAfter n }
            (u.worded .supply .minor (.faultRaised n .partRestarted .supply .minor t))) ∧
      (u.find .partRestarted .supply = none → u.freePosition = none → u.clearedOrder = [] →
        u.partRestarted t d = u.raise t .partRestarted .supply .minor)) ∧
    (∀ st : StatusNotice,
      (u.queue.any Notice.isStatus = false → u.queueStatus st = u.append (.crossingStatus st)) ∧
      (∀ ahead old behind, u.queue = ahead ++ .crossingStatus old :: behind → ahead.any Notice.isStatus = false →
        let combined : StatusNotice := { st with cause := if old.cause = none then st.cause else old.cause }
        u.queueStatus st = { u with queue := ahead ++ .crossingStatus combined :: behind })) ∧
    (∀ n, (u.queue.length < 24 → u.append n = { u with queue := u.queue ++ [n] }) ∧
      (24 ≤ u.queue.length → u.queue.any Notice.isPassed = true →
        u.append n = { u with queue := u.queue.eraseP Notice.isPassed ++ [n] }) ∧
      (24 ≤ u.queue.length → u.queue.any Notice.isPassed = false →
        u.append n = { u with overflowCount := min 255 (u.overflowCount + 1) }))

/-! ## Heads and passages -/

/-- A WORKING head's decoder follows the table of R5, with the measured speed of R6, the outcomes of R7, and the partial count
of R10: QUIET, ENTERING, SPANNED, LEAVING and QUIET again; a PARTIAL adds one to the count, an AXLE sets it to 0, a RETREAT
leaves it. A head begins observing in SETTLING, with both sensors OCCUPIED since that moment and no passage under way; a WORKING
one goes to QUIET at the sensor event that leaves both sensors QUIET, and no event in SETTLING has an outcome (R14); a FAILED one
stays in SETTLING (R12). -/
def Obligations.DecoderFollowsTable : Prop :=
  (∀ (r : Head) (spacing : Nat) (x : Side) (t : FineTime),
    let rest := { r with decoder := DecoderState.quiet, entrySide := none, capture := none, speed := none, heldSide := none }
    (r.decoder = .quiet → r.decode spacing x true t =
      ({ r with decoder := .entering, entrySide := some x, capture := some t }, .nothing)) ∧
    (∀ c, r.decoder = .entering → r.entrySide = some x.other → r.capture = some c → r.decode spacing x true t =
      ({ r with decoder := .spanned, speed := measuredSpeed spacing (fineInterval t c) }, .nothing)) ∧
    (r.decoder = .entering → r.entrySide = some x → r.decode spacing x false t =
      ({ rest with partials := r.partials + 1 }, .partialWheel)) ∧
    (r.decoder = .spanned → r.entrySide ≠ none → r.decode spacing x false t =
      ({ r with decoder := .leaving, heldSide := some x.other }, .nothing)) ∧
    (r.decoder = .leaving → r.entrySide ≠ none → r.decode spacing x true t =
      ({ r with decoder := .spanned, heldSide := none }, .nothing)) ∧
    (r.decoder = .leaving → r.entrySide = some x → r.decode spacing x false t = (rest, .retreat)) ∧
    (r.decoder = .leaving → r.entrySide = some x.other →
      let d : Dir := if x = .b then .ab else .ba
      r.decode spacing x false t =
        ({ rest with partials := 0, lastPassage := some ⟨d, r.speed, t.ms⟩ }, .axle d r.speed)) ∧
    (r.decoder = .settling → r.failure ≠ none → ∀ rise, r.decode spacing x rise t = (r, .nothing)) ∧
    (r.decoder = .settling → r.failure = none → ∀ rise,
      (r.sensorA.occupied = false ∧ r.sensorB.occupied = false →
        r.decode spacing x rise t = ({ r with decoder := .quiet }, .nothing)) ∧
      (r.sensorA.occupied = true ∨ r.sensorB.occupied = true → r.decode spacing x rise t = (r, .nothing)))) ∧
  (∀ (r : Head) (u : Nat), r.observe u = { r with
    decoder := .settling, sensorA := ⟨true, clockAt u, false⟩, sensorB := ⟨true, clockAt u, false⟩, entrySide := none
    capture := none, speed := none, heldSide := none, quietSince := none, observedFrom := some u }) ∧
  (∀ spacing interval : Nat,
    (interval = 0 ∨ 360 * spacing / interval < 2 ∨ 300 < 360 * spacing / interval → measuredSpeed spacing interval = none) ∧
    (interval ≠ 0 → 2 ≤ 360 * spacing / interval → 360 * spacing / interval ≤ 300 →
      measuredSpeed spacing interval = some (360 * spacing / interval)))

/-- SENSOR_EVENT (R2, R3, R5, R8, R10, R12, R14): a run shorter than the debounce time, a level the sensor already shows, and a
head that does not observe have no effect; otherwise the sensor's field takes the state and the start of the run, quiet-since
becomes the start of the run where the event leaves both sensors QUIET, and absent otherwise, and the decoder takes the event;
an AXLE delivers its passage, and the third PARTIAL fails the head with SENSOR-IMBALANCE. In SETTLING the decoder of a WORKING
head goes to QUIET with the event that leaves both sensors QUIET, and stands otherwise; that of a FAILED head stands. The time a
level has stood is an operand of the command (log 9). -/
def Obligations.SensorEventResult : Prop :=
  ∀ (dt held : Nat) (h : HeadId) (x : Side) (level : Level) (s : State), s.mon.held = false →
    let c : Instr := .sensorEvent dt h x level held
    let now := s.advance dt
    ((s.head h).observedFrom = none → exec c s = .next now) ∧
    (∀ start, (s.head h).observedFrom = some start →
      let run := max (s.uptime + dt - held) start
      let rise : Bool := level == s.cfg.occupiedLevel h x
      (s.uptime + dt < run + s.cfg.debounce h → exec c s = .next now) ∧
      (rise = ((s.head h).sensor x).occupied → exec c s = .next now) ∧
      (run + s.cfg.debounce h ≤ s.uptime + dt → rise ≠ ((s.head h).sensor x).occupied →
        let r := (s.head h).record x rise (clockAt run)
        let d := r.decode (s.cfg.spacing h) x rise (fineAt run)
        let both := rise = false ∧ ((s.head h).sensor x.other).occupied = false
        r.sensor x = ⟨rise, clockAt run, false⟩ ∧ r.sensor x.other = (s.head h).sensor x.other ∧
        r = { (s.head h).setSensor x ⟨rise, clockAt run, false⟩ with quietSince := if both then some (clockAt run) else none } ∧
        ((s.head h).decoder = .settling → ∃ t, exec c s = .next t ∧ t.head h =
          if both ∧ (s.head h).failure = none then { r with decoder := .quiet } else r) ∧
        (d.2 = .nothing ∨ d.2 = .retreat ∨ (d.2 = .partialWheel ∧ d.1.partials < 3) → Answers c s (now.setHead h d.1)) ∧
        (d.2 = .partialWheel → 3 ≤ d.1.partials → Answers c s ((now.setHead h d.1).failHead h .sensorImbalance)) ∧
        (∀ dir v, d.2 = .axle dir v → Answers c s ((now.setHead h d.1).passage ⟨h, dir, v, clockAt run⟩))))

/-- A passage in its two steps, and at an advance head (R20, R23, R24, R33, R34, R42 to R55, R57, R59, R64 to R66, R68, R70 to
R72, R76): from a section with a movement of its direction nearest the head, one axle leaves the section and enters the section
beyond, with its movement; a section at 250 axles is DISTURBED with OVERFLOW instead, one whose list is full with LIST-FULL, and
a DISTURBED one is not counted. From outside or a DISTURBED section, or one that it disturbs with UNDERFLOW, an axle joins the
nearest movement within the coupling gap, or starts a new one (OUTER, FROM-DISTURBED), whose number's CLEARED records leave (log
42), or with no slot free disturbs the section with TABLE-FULL; between sides both outside or DISTURBED it does nothing. A
movement against the passage is reversed whole, or split where astride the head, holding an axle in the section entered or not;
the axle counts for the reversed or the new movement, or disturbs the section with OVERFLOW or LIST-FULL, or with TABLE-FULL
where a split finds no slot, the direction then kept. A movement without axles is retired, with MOVEMENT-PASSED where it crossed
and left to outside. The sweep entry end follows; the last axle out through the other end restores the section, with RESTORED
queued and SECTION-DISTURBED cleared. An advance passage touches one movement, and re-times an ARRIVING one. Every movement
changed takes the state and timing fields of the change handed, as MovementStates gives them, with its SHORT-WARNING and
LONG-APPROACH. That a retirement clears before it queues MOVEMENT-PASSED is the model's choice (log 7); that a lost axle gives
its carrier the last-axle time, and after a split the new record alone, is its reading (log 11), and so is the passage time as
that of the change (log 12). That a carrier's axle, reversed or split too, at a count of 250 and a list of four others means
OVERFLOW and not LIST-FULL, where R24, R26 and both rows of R46 apply, is its reading too (log 46). -/
def Obligations.PassageResult : Prop :=
  ∀ (p : Passage) (s : State),
    let t := s.passage p
    let from_ := s.sectionBeside p.head p.dir.behind
    let into := s.sectionBeside p.head p.dir.before
    let disturbedBy := fun (y : SectionId) (c : DisturbCause) => t.sect y = { s.sect y with
      state := .disturbed, cause := some c, count := 0, restore := none, sweepEnd := none, list := [] }
    let uncounted := ∀ x, from_ = some x → (s.sect x).state = .disturbed
    let uncarried := fun o : Origin => (from_ = none ∧ o = .outer) ∨ ∃ x, from_ = some x ∧ into ≠ some x ∧
      ((s.sect x).state = .disturbed ∨ (s.sect x).list = []) ∧ o = .fromDisturbed
    (∀ (x y : SectionId) k m, from_ = some x → into = some y → x ≠ y → (s.sect x).state ≠ .disturbed →
      nearestEnd p.dir.before (s.sect x).list = some k → s.slot k = some m → m.dir = p.dir →
      (m.span.map SpanEntry.sect).Nodup →
      (t.sect x).count = (s.sect x).count - 1 ∧ (∀ z, z ≠ x → z ≠ y → t.sect z = s.sect z) ∧
      ((s.sect x).state = .restoring → (t.sect x).state = .restoring → (t.sect x).sweepEnd =
        if (s.sect x).sweepEnd = some p.dir.before then none else (s.sect x).sweepEnd) ∧
      ((s.sect y).state = .disturbed → t.sect y = s.sect y) ∧
      ((s.sect y).state ≠ .disturbed → 250 ≤ (s.sect y).count → disturbedBy y .overflow) ∧
      ((s.sect y).state ≠ .disturbed → (s.sect y).count < 250 → k ∉ (s.sect y).list → 4 ≤ (s.sect y).list.length →
        disturbedBy y .listFull) ∧
      ((s.sect y).state ≠ .disturbed → (s.sect y).count < 250 → k ∈ (s.sect y).list ∨ (s.sect y).list.length < 4 →
        (t.sect y).count = (s.sect y).count + 1 ∧ (t.sect y).list = (if k ∈ (s.sect y).list then (s.sect y).list else
          match p.dir with | .ab => k :: (s.sect y).list | .ba => (s.sect y).list ++ [k]) ∧
        ((s.sect y).state = .restoring → (t.sect y).sweepEnd =
          if (s.sect y).count = 0 ∨ (s.sect y).sweepEnd = some p.dir.behind then some p.dir.behind else none) ∧
        ∃ n, t.slot k = some n ∧ n.number = m.number ∧ n.dir = m.dir ∧ n.lastAxle = p.time ∧
          axlesIn n x = axlesIn m x - 1 ∧ axlesIn n y = axlesIn m y + 1 ∧
          (∀ z, z ≠ x → z ≠ y → axlesIn n z = axlesIn m z) ∧ n.crossed = (m.crossed || s.isIsland y) ∧
          n.crossingAxles = (if s.isIsland y then min 255 (m.crossingAxles + 1) else m.crossingAxles) ∧
          Handed s ⟨false, false, true, p.time⟩ (some m) n ∧
          (s.mon.mode ≠ .starting → (s.sect x).state ≠ .restoring →
            t.faults = s.faultsHanded (some m) n p.time))) ∧
    (∀ (y : SectionId) e o, uncarried o → into = some y → (s.sect y).place = some e → (s.sect y).state ≠ .disturbed →
      let joins := fun (k : SlotId) (m : Movement) => nearestEnd p.dir.behind (s.sect y).list = some k ∧
        s.slot k = some m ∧ m.dir = p.dir ∧ m.span.getLast?.map SpanEntry.sect = some y ∧
        ∃ r, m.rear = some r ∧ r.head = p.head ∧ since p.time r.time ≤ s.cfg.couplingGapMs
      (∀ z, z ≠ y → from_ ≠ some z ∨ (s.sect z).state = .disturbed → t.sect z = s.sect z) ∧
      (250 ≤ (s.sect y).count → disturbedBy y .overflow) ∧
      (∀ k m, (s.sect y).count < 250 → joins k m → (m.span.map SpanEntry.sect).Nodup →
        (t.sect y).count = (s.sect y).count + 1 ∧ (t.sect y).list = (s.sect y).list ∧
        t.tracker.counter = s.tracker.counter ∧
        ∃ n, t.slot k = some n ∧ n.number = m.number ∧ n.dir = m.dir ∧ n.origin = m.origin ∧
          n.entrySpeed = m.entrySpeed ∧ n.lastAxle = p.time ∧ n.rear = some ⟨p.head, p.time⟩ ∧
          axlesIn n y = axlesIn m y + 1 ∧ (∀ z, z ≠ y → axlesIn n z = axlesIn m z) ∧
          n.crossed = (m.crossed || s.isIsland y) ∧ Handed s ⟨false, false, true, p.time⟩ (some m) n ∧
          (s.mon.mode ≠ .starting → uncounted → t.faults = s.faultsHanded (some m) n p.time)) ∧
      ((s.sect y).count < 250 → (∀ k m, ¬joins k m) →
        (s.freeSlot = none → disturbedBy y .tableFull ∧
          (s.mon.mode ≠ .starting → FaultClass.inSet .tracking t.faults.sticky = true)) ∧
        (s.freeSlot ≠ none → 4 ≤ (s.sect y).list.length → disturbedBy y .listFull ∧
          (s.mon.mode ≠ .starting → FaultClass.inSet .tracking t.faults.sticky = true)) ∧
        (∀ k, s.freeSlot = some k → (s.sect y).list.length < 4 → k ∉ (s.sect y).list →
          (t.sect y).count = (s.sect y).count + 1 ∧
          (t.sect y).list = (match p.dir with | .ab => k :: (s.sect y).list | .ba => (s.sect y).list ++ [k]) ∧
          t.tracker.counter = counterAfter s.nextNumber ∧
          ∃ n, t.slot k = some n ∧ n.number = s.nextNumber ∧ n.track = e.track ∧ n.dir = p.dir ∧ n.span = [⟨y, 1⟩] ∧
            n.entrySpeed = p.speed ∧ n.origin = o ∧ n.lastAxle = p.time ∧ n.rear = some ⟨p.head, p.time⟩ ∧
            n.advance = none ∧ n.crossed = s.isIsland y ∧ n.crossingAxles = (if s.isIsland y then 1 else 0) ∧
            n.reversed = false ∧ Handed s ⟨true, false, true, p.time⟩ none n ∧
            (s.mon.mode ≠ .starting → uncounted → t.faults =
              ({ s with faults := s.faults.giveNumber n.number } : State).faultsHanded none n p.time)))) ∧
    (s.bounds p.head = true → uncounted → (∀ y, into = some y → (s.sect y).state = .disturbed) → t = s) ∧
    (∀ (x : SectionId), from_ = some x → into ≠ some x → (s.sect x).state ≠ .disturbed → (s.sect x).list = [] →
      disturbedBy x .underflow) ∧
    (∀ (x : SectionId) k m, from_ = some x → (s.sect x).state ≠ .disturbed →
      nearestEnd p.dir.before (s.sect x).list = some k → s.slot k = some m →
      let left := removeAxle x m.span
      let lost := into = none ∨ ∃ y, into = some y ∧ y ≠ x ∧ (s.sect y).state = .disturbed
      (lost → left = [] → t.slot k = none ∧ (∀ j, j ≠ k → t.slot j = s.slot j) ∧
        (s.mon.mode ≠ .starting → (s.sect x).state ≠ .restoring →
          let cleared := (s.faults.clear s.seconds .shortWarning (.movement m.number)).clear s.seconds .longApproach
            (.movement m.number)
          t.faults = if into = none ∧ m.crossed = true then cleared.append
              (.movementPassed m.number m.track p.dir m.crossingAxles m.entrySpeed s.seconds)
            else cleared)) ∧
      (into ≠ some x → (s.sect x).state = .restoring → (s.sect x).count = 1 → (s.sect x).list = [k] →
        (∃ e, (s.sect x).sweepEnd = some e ∧ e ≠ p.dir.before) → left.any (fun e => e.sect == x) = false →
        ∀ e, (s.sect x).place = some e → t.sect x = { s.sect x with
            state := .clear, count := 0, cause := none, restore := none, sweepEnd := none, list := [] } ∧
          (s.mon.mode ≠ .starting → s.faults.queue.length < 24 → .restored x e.track .sweep ∈ t.faults.queue) ∧
          (s.mon.mode ≠ .starting → FaultsDistinct s.faults →
            ∀ q f, t.faults.find .sectionDisturbed (.sect x) = some (q, f) → f.state = FaultState.cleared)) ∧
      (lost → left ≠ [] →
        ∃ n, t.slot k = some n ∧ n.number = m.number ∧ n.dir = p.dir ∧ n.reversed = (m.reversed || m.dir != p.dir) ∧
          n.span = (if m.dir = p.dir then left else left.reverse) ∧ n.rear = (if m.dir = p.dir then m.rear else none) ∧
          n.advance = (if m.dir = p.dir then m.advance else none) ∧ n.origin = m.origin ∧
          n.entrySpeed = m.entrySpeed ∧ n.lastAxle = p.time ∧ Handed s ⟨false, false, true, p.time⟩ (some m) n) ∧
      (∀ y, m.dir ≠ p.dir → into = some y → y ≠ x → (s.sect y).state ≠ .disturbed → (m.span.map SpanEntry.sect).Nodup →
        let astride := s.astride p { m with span := left }
        let held := decide (k ∈ (s.sect y).list)
        let room := (s.sect y).count < 250 ∧ (k ∈ (s.sect y).list ∨ (s.sect y).list.length < 4)
        let placed := fun j : SlotId => match p.dir with | .ab => j :: (s.sect y).list | .ba => (s.sect y).list ++ [j]
        let filled := disturbedBy y (if 250 ≤ (s.sect y).count then .overflow else .listFull) ∧
          (s.mon.mode ≠ .starting → (s.sect y).count < 250 → FaultClass.inSet .tracking t.faults.sticky = true)
        (astride = false → room → (t.sect y).count = (s.sect y).count + 1 ∧
          (t.sect y).list = (if held then (s.sect y).list else placed k) ∧
          ∃ n, t.slot k = some n ∧ n.number = m.number ∧ n.dir = p.dir ∧ n.reversed = true ∧ n.rear = none ∧
            n.advance = none ∧ n.origin = m.origin ∧ n.entrySpeed = m.entrySpeed ∧ n.lastAxle = p.time ∧
            axlesIn n x = axlesIn m x - 1 ∧ axlesIn n y = axlesIn m y + 1 ∧
            (∀ z, z ≠ x → z ≠ y → axlesIn n z = axlesIn m z) ∧ n.crossed = (m.crossed || s.isIsland y) ∧
            Handed s ⟨false, false, true, p.time⟩ (some m) n) ∧
        (astride = false → TableShape s → ¬room → filled ∧
          let kept := left.reverse.filter fun e => e.sect ≠ y
          (kept = [] → t.slot k = none) ∧
          (kept ≠ [] → ∃ n, t.slot k = some n ∧ n.number = m.number ∧ n.dir = p.dir ∧ n.reversed = true ∧ n.rear = none ∧
            n.advance = none ∧ n.origin = m.origin ∧ n.entrySpeed = m.entrySpeed ∧ n.lastAxle = p.time ∧ n.span = kept ∧
            Handed s ⟨false, held, true, p.time⟩ (some m) n)) ∧
        (astride = true → TableShape s → s.freeSlot = none →
          disturbedBy y .tableFull ∧ (s.mon.mode ≠ .starting → FaultClass.inSet .tracking t.faults.sticky = true) ∧
          ∀ n, t.slot k = some n → n.number = m.number ∧ n.dir = m.dir ∧ n.reversed = m.reversed ∧ n.rear = m.rear ∧
            n.advance = m.advance ∧ n.span = (left.filter fun e => e.sect ≠ y) ∧
            Handed s ⟨false, held, true, p.time⟩ (some m) n) ∧
        (∀ j, astride = true → TableShape s → s.freeSlot = some j → s.behindHead p y = false →
          let near := left.reverse.filter fun e => !s.behindHead p e.sect
          let begun := fun n : Movement => n.number = s.nextNumber ∧ n.track = m.track ∧ n.dir = p.dir ∧
            n.reversed = true ∧ n.origin = .reversedHere ∧ n.entrySpeed = p.speed ∧ n.lastAxle = p.time ∧ n.rear = none ∧
            n.advance = none
          t.tracker.counter = counterAfter s.nextNumber ∧
          (∃ n, t.slot k = some n ∧ n.number = m.number ∧ n.dir = m.dir ∧ n.origin = m.origin ∧
            n.reversed = m.reversed ∧ n.span = (left.filter fun e => s.behindHead p e.sect) ∧
            Handed s ⟨false, false, false, p.time⟩ (some m) n) ∧
          (room → (t.sect y).count = (s.sect y).count + 1 ∧
            (t.sect y).list = (if held then (s.sect y).list.map (fun i => if i = k then j else i) else placed j) ∧
            (FaultsDistinct s.faults → ∀ w ∈ [FaultKind.shortWarning, FaultKind.longApproach], ∀ q r,
              t.faults.find w (.movement s.nextNumber) = some (q, r) → r.state ≠ FaultState.cleared) ∧
            ∃ n, t.slot j = some n ∧ begun n ∧ n.crossed = s.isIsland y ∧
              n.crossingAxles = (if s.isIsland y then 1 else 0) ∧ axlesIn n y = axlesIn m y + 1 ∧
              (∀ z, z ≠ y → axlesIn n z = if s.behindHead p z then 0 else axlesIn m z) ∧
              Handed s ⟨true, false, true, p.time⟩ none n) ∧
          (¬room → filled ∧
            let kept := near.filter fun e => e.sect ≠ y
            (kept = [] → t.slot j = none) ∧
            (kept ≠ [] → ∃ n, t.slot j = some n ∧ begun n ∧ n.crossed = false ∧ n.crossingAxles = 0 ∧ n.span = kept ∧
              Handed s ⟨true, held, true, p.time⟩ none n))))) ∧
    (s.bounds p.head = false → t.sections = s.sections ∧
      (s.placedIn p.head = none → t = s) ∧
      (∀ y, s.placedIn p.head = some y →
        let following := (s.sect y).list.filter fun k => match s.slot k with
          | some m => m.dir == p.dir && m.advance.any fun a =>
              a.head == p.head && since p.time a.time ≤ s.cfg.couplingGapMs
          | none => false
        let fronts := (s.sect y).list.filter fun k => match s.slot k with
          | some m => m.dir == p.dir && m.advance.all fun a => a.head != p.head
          | none => false
        ((s.sect y).state = .disturbed ∨ (following = [] ∧ fronts = []) → t = s) ∧
        (∀ k m, (s.sect y).state ≠ .disturbed → s.slot k = some m →
          nearestEnd p.dir.before (if following = [] then fronts else following) = some k →
          (∀ j, j ≠ k → t.slot j = s.slot j) ∧
          ∃ n, t.slot k = some n ∧ n.number = m.number ∧ n.span = m.span ∧ n.advance = some ⟨p.head, p.time⟩ ∧
            n.lastAxle = p.time ∧
            (m.state ≠ .arriving → Handed s ⟨false, false, true, p.time⟩ (some m) n ∧
              (s.mon.mode ≠ .starting → t.faults = s.faultsHanded (some m) n p.time)) ∧
            (∀ d, m.state = .arriving → m.dueTime = some d → s.situation m = .toward →
              s.cfg.timed (s.governingEntry m) = true →
              let e := s.governingProfile m
              (following ≠ [] ∨ p.speed = none ∨ e.advanceHead.toNat ≠ p.head.val →
                n.state = .arriving ∧ n.dueTime = some d) ∧
              (∀ v, following = [] → p.speed = some v → e.advanceHead.toNat = p.head.val →
                let remaining := e.advanceDistance.toNat * 3600 / (if v < 5 then 5 else v)
                let lead := e.minimumWarning.toNat * 1000 + s.cfg.amberMs
                let candidate := after p.time (remaining - lead)
                let due := if reached candidate d then d else candidate
                (reached p.time due = true → n.state = .due ∧ n.dueTime = none ∧ n.dueSince = some p.time) ∧
                (reached p.time due = false → n.state = .arriving ∧ n.dueTime = some due))))))

/-- SENSOR_STUCK_EXPIRY, HEAD_RECOVERY and the failure of a head (R9, R11, R12, R13, R25): past the stuck limit a WORKING head
fails with SENSOR-STUCK, once for each occupation, and a FAILED one takes that kind and raises its fault again; a FAILED head
whose sensors have been QUIET together for 5 s is WORKING in QUIET with no partials, and its faults are cleared. A head that
fails goes to SETTLING with no passage under way, the sections beside it are DISTURBED with HEAD-FAILED, and its fault is raised
after theirs, in a record that is not CLEARED or, with no place free, in the overflow record. The order of the raises, the A
side, the B side, then the head's own, is the model's choice (log 7), and so is that of a recovery's two clears, SENSOR-STUCK
before SENSOR-IMBALANCE, which R13 and R152 leave open; that a timer acts when its command comes past its limit or at its time,
and not before, is its reading (log 3). -/
def Obligations.HeadFailures : Prop :=
  (∀ (dt : Nat) (h : HeadId) (x : Side) (s : State), s.mon.held = false →
    let now := s.advance dt
    let r := s.head h
    let tooLong := r.observedFrom ≠ none ∧ (r.sensor x).occupied = true ∧ (r.sensor x).stuckTaken = false ∧
      s.cfg.stuckMs h < since now.now (r.sensor x).changed
    let taken := r.setSensor x { r.sensor x with stuckTaken := true }
    (¬tooLong → exec (.sensorStuckExpiry dt h x) s = .next now) ∧
    (tooLong → r.failure = none → Answers (.sensorStuckExpiry dt h x) s ((now.setHead h taken).failHead h .sensorStuck)) ∧
    (tooLong → r.failure ≠ none → Answers (.sensorStuckExpiry dt h x) s
      ((now.setHead h { taken with failure := some .sensorStuck }).raise .sensorStuck (.head h)))) ∧
  (∀ (dt : Nat) (h : HeadId) (s : State), s.mon.held = false →
    let now := s.advance dt
    let r := s.head h
    (∀ q, r.failure ≠ none → r.quietSince = some q → 5000 ≤ since now.now q → Answers (.headRecovery dt h) s
      (((now.setHead h { r with failure := none, decoder := .quiet, partials := 0 }).clear .sensorStuck (.head h)).clear
        .sensorImbalance (.head h))) ∧
    (r.failure = none ∨ r.quietSince = none ∨ (∃ q, r.quietSince = some q ∧ since now.now q < 5000) →
      exec (.headRecovery dt h) s = .next now)) ∧
  (∀ (h : HeadId) (k : HeadFailure) (s : State),
    let t := s.failHead h k
    t.head h = { s.head h with
      failure := some k, decoder := .settling, entrySide := none, capture := none, speed := none, heldSide := none } ∧
    (∀ g, g ≠ h → t.head g = s.head g) ∧
    (∀ y, s.sectionBeside h .a = some y ∨ s.sectionBeside h .b = some y → t.sect y = { s.sect y with
      state := .disturbed, cause := some .headFailed, count := 0, restore := none, sweepEnd := none, list := [] }) ∧
    (∀ y, s.sectionBeside h .a ≠ some y → s.sectionBeside h .b ≠ some y → t.sect y = s.sect y) ∧
    (s.mon.mode ≠ .starting →
      let kind : FaultKind := match k with | .sensorStuck => .sensorStuck | .sensorImbalance => .sensorImbalance
      let beside := (s.sectionBeside h .a).toList ++ (s.sectionBeside h .b).toList
      FaultClass.inSet .detection t.faults.sticky = true ∧
      ((∃ q r, t.faults.find kind (.head h) = some (q, r) ∧ r.state ≠ FaultState.cleared ∧ r.severity = .major ∧
          r.lastSeen = s.seconds) ∨
        (t.faults.find kind (.head h) = none ∧ ∃ o, t.faults.overflow = some o ∧ o.state ≠ FaultState.cleared ∧
          o.lastSeen = s.seconds)) ∧
      ((∀ y, y ∈ beside → (s.sect y).list = []) → t.faults =
        (beside.foldl (fun u y => u.raise s.seconds .sectionDisturbed (.sect y) .major) s.faults).raise s.seconds kind
          (.head h) .major)))

/-! ## Timers of movements, of the sequence, and of the lanes -/

/-- DUE_TIME_REACHED, RAISE_BLOCKER_APPEARS and LONG_APPROACH_EXPIRY (R67, R65, R79, R72): at its due time an ARRIVING movement
is DUE since that time, with warned-at from the red start; at the raise margin before it the raise blocker is present; a DUE
movement past the maximum approach time of its governing profile raises LONG-APPROACH, once for each period in DUE.
LANE_CONTACT_EXPIRY, LANE_NOT_HEARD_EXPIRY, CONSENT_EXPIRY, RESET_AGREEMENT_LAPSE and LANE_DISAGREE_EXPIRY (R86, R87, R92, R96,
R94): a lane past its contact time, or not heard for 10 s, is LOST: its consent and agreement are dropped, its hold is kept, and
LANE-LOST is raised. A consent falls at 10 s and an agreement at 30 s. After 5 s of disagreement LANE-DISAGREE is raised once,
with the lane that carries no consent as its subject. Each has no effect before its time. A timer acts when its command comes at
or after its time (log 3). -/
def Obligations.ApproachAndLaneTimers : Prop :=
  (∀ (dt : Nat) (k : SlotId) (m : Movement) (s : State), s.mon.held = false → s.slot k = some m →
    let now := s.advance dt
    (∀ d, m.state = .arriving → m.dueTime = some d → reached now.now d = true →
      let due : Movement := { m with
        state := .due, dueTime := none, dueSince := some d, warnedAt := s.seq.redStart, longRaised := false }
      ∃ t, exec (.dueTimeReached dt k) s = .next t ∧ EventFrame (now.setSlot k (some due)) t ∧
        t.slot k = some { due with warnedAt := warnedFrom s t } ∧ t.approach.demand = true) ∧
    (m.state ≠ .arriving ∨ (∀ d, m.dueTime = some d → reached now.now d = false) →
      exec (.dueTimeReached dt k) s = .next now) ∧
    (∀ d, m.state = .arriving → m.dueTime = some d →
      (reached (after now.now ((s.governingProfile m).raiseMargin.toNat * 1000)) d = true →
        ∃ t, exec (.raiseBlockerAppears dt k) s = .next t ∧ t.approach.blocker = true ∧ EventFrame now t) ∧
      (reached (after now.now ((s.governingProfile m).raiseMargin.toNat * 1000)) d = false →
        exec (.raiseBlockerAppears dt k) s = .next now)) ∧
    (∀ d, m.state = .due → m.dueSince = some d →
      ((s.governingProfile m).maximumApproach.toNat * 1000 < since now.now d → m.longRaised = false →
        Answers (.longApproachExpiry dt k) s
          ((now.setSlot k (some { m with longRaised := true })).raise .longApproach (.movement m.number))) ∧
      (since now.now d ≤ (s.governingProfile m).maximumApproach.toNat * 1000 ∨ m.longRaised = true →
        exec (.longApproachExpiry dt k) s = .next now))) ∧
  (∀ (dt : Nat) (l : Lane) (e : Time) (s : State), s.mon.held = false →
    let now := s.advance dt
    let lost := (now.setLane l { s.lane l with contact := .lost, consent := none, agreement := none }).raise .laneLost (.lane l)
    ((l = .a ∨ s.cfg.dual = true) → s.mon.mode ≠ .starting →
      ((s.lane l).contact = .present → (s.lane l).lastContact = some e →
        (reached now.now (after e s.cfg.laneContactMs) = true → Answers (.laneContactExpiry dt l) s lost) ∧
        (reached now.now (after e s.cfg.laneContactMs) = false → exec (.laneContactExpiry dt l) s = .next now)) ∧
      ((s.lane l).contact = .notHeard → (s.lane l).supervisedFrom = some e →
        (reached now.now (after e 10000) = true → Answers (.laneNotHeardExpiry dt l) s lost) ∧
        (reached now.now (after e 10000) = false → exec (.laneNotHeardExpiry dt l) s = .next now))) ∧
    ((s.lane l).contact ≠ .present → exec (.laneContactExpiry dt l) s = .next now) ∧
    ((s.lane l).contact ≠ .notHeard → exec (.laneNotHeardExpiry dt l) s = .next now) ∧
    (∀ g, (s.lane l).consent = some g →
      (reached now.now (after g.given 10000) = true →
        Answers (.consentExpiry dt l) s (now.setLane l { s.lane l with consent := none })) ∧
      (reached now.now (after g.given 10000) = false → exec (.consentExpiry dt l) s = .next now)) ∧
    (∀ g, (s.lane l).agreement = some g →
      (reached now.now (after g.given 30000) = true →
        Answers (.resetAgreementLapse dt l) s (now.setLane l { s.lane l with agreement := none })) ∧
      (reached now.now (after g.given 30000) = false → exec (.resetAgreementLapse dt l) s = .next now)) ∧
    (∀ d, s.stances.disagreement = some d →
      (d.raised = false → now.disagreeing = true → (s.lane l).consent = none → reached now.now (after d.since 5000) = true →
        let m := ({ now with
          stances := { s.stances with disagreement := some { d with raised := true } } } : State).raise .laneDisagree (.lane l)
        ∃ t, exec (.laneDisagreeExpiry dt) s = .next t ∧ EventFrame m t ∧
          (t.disagreeing = true → t.stances.disagreement = some { d with raised := true }) ∧
          (t.seq.state = .closed → t.faults.table = (s.faults.raise now.seconds .laneDisagree (.lane l) .minor).table)) ∧
      (d.raised = true ∨ now.disagreeing = false ∨ reached now.now (after d.since 5000) = false →
        exec (.laneDisagreeExpiry dt) s = .next now)))

/-- AMBER_EXPIRY, BOOM_DELAY_EXPIRY and EXIT_WAIT_EXPIRY (R107, R108, R103, R69, R70, R104): with nothing that calls for
FAILED-CLOSED, the amber time ends in RED-WARNING with the red start set, the boom delay running, and warned-at given to
every DUE or CROSSING movement without one; the boom delay ends in ENTRY-LOWERING with the entry booms ordered LOWER and
the exit booms RAISE; the exit wait ends in EXIT-LOWERING with all four ordered LOWER. The closure number stands. A timer
that has not run out has no effect. The entries are timed at the command (logs 3 and 12). -/
def Obligations.StepTimers : Prop :=
  ∀ (dt : Nat) (e : Time) (s : State), s.mon.held = false → s.seq.stepTimer = some e →
    let now := s.advance dt
    (reached now.now e = false → exec (.amberExpiry dt) s = .next now ∧ exec (.boomDelayExpiry dt) s = .next now ∧
      exec (.exitWaitExpiry dt) s = .next now) ∧
    (s.seq.state ≠ .amber → exec (.amberExpiry dt) s = .next now) ∧
    (s.seq.state ≠ .redWarning → exec (.boomDelayExpiry dt) s = .next now) ∧
    (s.seq.state ≠ .exitWait → exec (.exitWaitExpiry dt) s = .next now) ∧
    (s.sound = true → reached now.now e = true →
      (s.seq.state = .amber → ∃ t, exec (.amberExpiry dt) s = .next t ∧ t.seq.state = .redWarning ∧
        t.seq.closure = s.seq.closure ∧ t.seq.redStart = some now.now ∧
        t.seq.stepTimer = some (after now.now s.cfg.boomDelayMs) ∧
        (∀ k : SlotId, t.slot k = (s.slot k).map fun m =>
          if (m.state = .due ∨ m.state = .crossing) ∧ m.warnedAt = none then { m with warnedAt := some now.now } else m) ∧
        (∀ i, (s.boom i).source = .sequencer → t.boom i = (s.boom i).takeOrder .raise now.uptime s.cfg.travelMs)) ∧
      (s.seq.state = .redWarning → s.out.booms.entriesDown = false →
        ∃ t, exec (.boomDelayExpiry dt) s = .next t ∧ t.seq.state = .entryLowering ∧ t.seq.stepTimer = none ∧
          t.seq.closure = s.seq.closure ∧ t.seq.redStart = s.seq.redStart ∧
          (∀ i, (s.boom i).source = .sequencer → t.boom i = (s.boom i).takeOrder
            (match i with | .entry1 | .entry2 => .lower | .exit1 | .exit2 => .raise) now.uptime s.cfg.travelMs)) ∧
      (s.seq.state = .exitWait → s.out.booms.allDown = false →
        ∃ t, exec (.exitWaitExpiry dt) s = .next t ∧ t.seq.state = .exitLowering ∧ t.seq.stepTimer = none ∧
          t.seq.closure = s.seq.closure ∧ t.seq.redStart = s.seq.redStart ∧
          (∀ i, (s.boom i).source = .sequencer → t.boom i = (s.boom i).takeOrder .lower now.uptime s.cfg.travelMs)))

/-- MINIMUM_CLOSED_EXPIRY and SECOND_TRAIN_EXPIRY (R109, R111, R120): at the end of the minimum closed time it is elapsed,
and the road begins to rise in the same event exactly if raise is permitted: no demand, no raise blocker, no STOPPED boom,
no major lamp condition, supply not LOW, mode NORMAL, and consent complete. At the end of the second-train timer it is
absent. A timer acts when its command comes at or after its time (log 3). -/
def Obligations.ClosedTimers : Prop :=
  ∀ (dt : Nat) (e : Time) (s : State), s.mon.held = false →
    let now := s.advance dt
    (s.seq.minClosed = some (.running e) → reached now.now e = false → exec (.minimumClosedExpiry dt) s = .next now) ∧
    (s.seq.minClosed = some (.running e) → reached now.now e = true → s.seq.state = .closed → s.sound = true →
      ∃ t, exec (.minimumClosedExpiry dt) s = .next t ∧
        (t.seq.state = .raising ↔ now.demandNow = false ∧ now.blockerNow = false ∧ s.out.lamps.major = false ∧
          s.mon.supply ≠ .low ∧ s.mon.mode = .normal ∧ now.consentComplete = true) ∧
        (t.seq.state ≠ .raising → t.seq.state = .closed ∧ t.seq.minClosed = some .elapsed) ∧
        t.seq.closure = s.seq.closure ∧ EventFrame now t) ∧
    (s.seq.secondTrain = some e → reached now.now e = false → exec (.secondTrainExpiry dt) s = .next now) ∧
    (s.seq.secondTrain = some e → reached now.now e = true →
      ∃ t, exec (.secondTrainExpiry dt) s = .next t ∧ t.seq.secondTrain = none ∧ EventFrame now t)

/-- What each step does to the sequencer, while the part is not held and no reset comes (R69, R103, R106 to R109, R111 to R113,
R115 to R118, R120, R124, R163, R164): a cause that enters an empty set takes the road to FAILED-CLOSED; in OPEN the appearance
of demand leads to AMBER; in ENTRY-LOWERING the second entry boom DOWN to EXIT-WAIT; in EXIT-LOWERING and RECLOSING the last
boom DOWN to CLOSED, or to FAILED-CLOSED with the major lamp condition present; in CLOSED raise permission to RAISING; in
RAISING the appearance of demand to RECLOSING and the last boom UP to OPEN; in FAILED-CLOSED an empty cause set with all booms
DOWN to CLOSED; and no other step leaves a state but a timer of it. RAISING is entered with the minimum closed time elapsed, or
at its end. A major lamp condition that appears in a state other than OPEN puts LAMP in the set. The second-train timer starts,
or starts again, for 10 s when a movement enters DUE in EXIT-WAIT, EXIT-LOWERING, CLOSED or FAILED-CLOSED with another track's
movement DUE or CROSSING; it stands through entries from one of those states into another, and ends on every other entry. An
entry starts the step timer of AMBER, RED-WARNING or EXIT-WAIT, or the minimum closed time of CLOSED, and ends those of the
state left; the red start is set on entry into RED-WARNING, and into FAILED-CLOSED from OPEN or AMBER, is made absent on entry
into OPEN, and else stands. A state is followed by the next in one event where a timer's expiry enters it with the next
condition already true (log 26). That the red start and the timers, the second-train timer among them, are timed at the clock of
the command, also where an earlier passage is the cause, is the model's reading (log 12). With a change of the sequencer state,
the proven flag, the mode or the supply state a CROSSING-STATUS stands in the queue with the values at the end of the event, the
OCCUPIED and demand bits of each track among them, or the queue is full and has none to give its place. -/
def Obligations.SequencerSteps : Prop :=
  ∀ s t, step s = .next t → s.mon.held = false → ¬Resets s t →
    let appeared := s.approach.demand = false ∧ t.approach.demand = true
    let failed := t.seq.state = .failedClosed ∧ t.noCause = false
    let down := t.out.booms.allDown = true
    let hears := fun q : SeqState => q = .exitWait ∨ q = .exitLowering ∨ q = .closed ∨ q = .failedClosed
    let triggered := ∃ k m, t.slot k = some m ∧ m.state = .due ∧
      (∀ old, s.slot k = some old → old.number = m.number → old.state ≠ .due) ∧
      ∃ j n, t.slot j = some n ∧ n.track ≠ m.track ∧ (n.state = .due ∨ n.state = .crossing)
    (s.noCause = true → t.noCause = false → t.seq.state = .failedClosed) ∧
    (s.out.major = false → t.out.major = true →
      (s.seq.state ≠ .open → t.seq.causes.lamp = true ∧ t.seq.state = .failedClosed) ∧
      (s.seq.state = .open → s.seq.causes.lamp = false → t.seq.causes.lamp = false)) ∧
    (hears t.seq.state → triggered → t.seq.secondTrain = some (after t.now 10000)) ∧
    (t.seq.state ≠ s.seq.state → ¬(hears s.seq.state ∧ hears t.seq.state) → ¬(hears t.seq.state ∧ triggered) →
      t.seq.secondTrain = none) ∧
    (t.seq.state = s.seq.state ∨ (hears s.seq.state ∧ hears t.seq.state) → ¬(hears t.seq.state ∧ triggered) →
      (∀ dt rest, s.pending ≠ .secondTrainExpiry dt :: rest) → t.seq.secondTrain = s.seq.secondTrain) ∧
    (t.seq.state ≠ s.seq.state →
      t.seq.stepTimer = (match t.seq.state with
        | .amber => some (after t.now t.cfg.amberMs)
        | .redWarning => some (after t.now t.cfg.boomDelayMs)
        | .exitWait => some (after t.now t.cfg.exitWaitMs)
        | _ => none) ∧
      t.seq.minClosed = if t.seq.state = .closed then some (.running (after t.now t.cfg.minimumClosedMs)) else none) ∧
    (t.seq.state = s.seq.state → t.seq.stepTimer = s.seq.stepTimer ∧
      (t.seq.minClosed = s.seq.minClosed ∨
        (∃ dt rest, s.pending = .minimumClosedExpiry dt :: rest) ∧ t.seq.minClosed = some .elapsed)) ∧
    ((∀ dt rest, s.pending ≠ .stabilisationWaitEnd dt :: rest) → t.seq.redStart =
      if t.seq.state = .open ∧ s.seq.state ≠ .open then none else if redStartSet s t = true then some t.now
      else s.seq.redStart) ∧
    (∀ cause, let n := t.statusNotice cause
      n.state = t.seq.state ∧ n.closure = t.seq.closure ∧ n.proven = t.seq.proven ∧ n.mode = t.mon.mode ∧
      n.supply = t.mon.supply ∧ n.seconds = t.seconds ∧ n.cause = cause ∧
      ∀ x : TrackId, (n.occupied.getLsbD x.val = true ↔ Answered t .occupied x) ∧
        (n.demand.getLsbD x.val = true ↔ Answered t .demand x)) ∧
    (match s.seq.state with
      | .open => (appeared → t.noCause = true → t.seq.state = .amber) ∧
        (t.seq.state = .open ∨ (t.seq.state = .amber ∧ appeared) ∨ failed)
      | .amber => t.seq.state = .amber ∨ t.seq.state = .redWarning ∨ failed
      | .redWarning => t.seq.state = .redWarning ∨ t.seq.state = .entryLowering ∨
        (t.seq.state = .exitWait ∧ t.out.booms.entriesDown = true) ∨ failed
      | .entryLowering =>
        (s.out.booms.entriesDown = false → t.out.booms.entriesDown = true → t.noCause = true → t.seq.state = .exitWait) ∧
        (t.seq.state = .entryLowering ∨ (t.seq.state = .exitWait ∧ t.out.booms.entriesDown = true) ∨ failed)
      | .exitWait => t.seq.state = .exitWait ∨ t.seq.state = .exitLowering ∨
        (t.seq.state = .closed ∧ down ∧ t.out.lamps.major = false) ∨ failed
      | .exitLowering | .reclosing =>
        (s.out.booms.allDown = false → down →
          (t.out.lamps.major = false → t.noCause = true → t.seq.state = .closed) ∧
          (t.out.lamps.major = true → failed ∧ (s.noCause = true → t.seq.causes.lamp = true ∨ t.seq.causes.config = true))) ∧
        (t.seq.state = s.seq.state ∨ (t.seq.state = .closed ∧ down ∧ t.out.lamps.major = false) ∨ failed)
      | .closed =>
        (t.seq.state = .closed → s.raiseOtherwise = false → t.raiseOtherwise = true → t.consentComplete = false) ∧
        (t.seq.state = .closed ∨ failed ∨ (t.seq.state = .raising ∧ (s.seq.minClosed = some .elapsed ∨
            ∃ dt rest e, s.pending = .minimumClosedExpiry dt :: rest ∧ s.seq.minClosed = some (.running e)) ∧
          t.approach.demand = false ∧
          t.approach.blocker = false ∧ t.out.lamps.major = false ∧ t.mon.supply ≠ .low ∧ t.mon.mode = .normal ∧
          (∀ i, (t.boom i).state ≠ .stopped) ∧ (∀ l, l = .a ∨ t.cfg.dual = true → (t.lane l).contact = .present)))
      | .raising => (appeared → t.noCause = true → t.seq.state = .reclosing) ∧
        (¬appeared → s.out.booms.allUp = false → t.out.booms.allUp = true → t.noCause = true → t.seq.state = .open) ∧
        (t.seq.state = .raising ∨ (t.seq.state = .reclosing ∧ appeared) ∨
          (t.seq.state = .open ∧ t.out.booms.allUp = true ∧ ¬appeared) ∨ failed)
      | .failedClosed => (s.noCause = false ∨ s.out.booms.allDown = false → t.noCause = true → down → t.seq.state = .closed) ∧
        (t.seq.state = .failedClosed ∨ (t.seq.state = .closed ∧ t.noCause = true ∧ down))) ∧
    (t.mon.mode ≠ .starting →
      t.seq.state ≠ s.seq.state ∨ t.seq.proven ≠ s.seq.proven ∨ t.mon.mode ≠ s.mon.mode ∨ t.mon.supply ≠ s.mon.supply →
      (∃ cause, .crossingStatus (t.statusNotice cause) ∈ t.faults.queue) ∨
        (24 ≤ t.faults.queue.length ∧ ∀ n, n ∈ t.faults.queue → n.isStatus = false ∧ n.isPassed = false))

/-! ## Events of booms, lamps, tones and ports -/

/-- CONTACT_CHANGE (R127, R131, R132, R133, R134, R135, R146, R148): a run shorter than 20 ms, or a level the contact already
shows, has no effect; otherwise the contact takes it with the start of the run as its time, and a conflict of the two contacts
is timed from there; a STOPPED boom at the DOWN contact alone under LOWER recovers from the later of the run's start and its
last change of order. While the outputs are off that is all. While they are driven, a boom in motion whose target contact is
then MADE alone has arrived, with a rest mark, and a test of LOWER ends there; a boom at rest under its order whose contact is
OPEN, under test or not, is STOPPED with BOOM-DISPLACED, its test ended, and the road FAILED-CLOSED; any other boom stands. The
time a level has stood is an operand of the command (log 10). That the conflict and the recovery run from the start of a run,
and a rest mark from the clock of the event, is the model's reading (log 22). -/
def Obligations.ContactChangeResult : Prop :=
  ∀ (dt held : Nat) (i : BoomId) (k : ContactId) (made : Bool) (s : State), s.mon.held = false →
    let c : Instr := .contactChange dt i k made held
    let now := s.advance dt
    let run := max (s.uptime + dt - held) s.out.conditionedFrom
    let b := (s.boom i).contact k made run
    let still := b.state = .settling ∨ b.state = .stopped ∨ (b.state = .lowering ∧ b.downAlone = false) ∨
      (b.state = .raising ∧ b.upAlone = false) ∨ (b.state = .down ∧ (b.order = .raise ∨ b.downContact.made = true)) ∨
      (b.state = .up ∧ (b.order = .lower ∨ b.upContact.made = true))
    (match k with
      | .up => b.upContact = ⟨made, clockAt run⟩ ∧ b.downContact = (s.boom i).downContact
      | .down => b.downContact = ⟨made, clockAt run⟩ ∧ b.upContact = (s.boom i).upContact) ∧
    (b.conflictSince ≠ none ↔ b.upContact.made = true ∧ b.downContact.made = true) ∧
    ((s.boom i).conflictSince = none → b.conflictSince ≠ none → b.conflictSince = some (clockAt run)) ∧
    b.recoverySince = (if b.state = .stopped ∧ b.downContact.made = true ∧ b.upContact.made = false ∧ b.order = .lower
      then some ((s.boom i).recoverySince.getD (clockAt (max run (s.boom i).orderSince))) else none) ∧
    (s.uptime + dt < run + 2000 ∨ (s.boom i).made k = made → exec c s = .next now) ∧
    (run + 2000 ≤ s.uptime + dt → (s.boom i).made k ≠ made →
      (s.out.driven = false → AnswersBoom c s (now.setBoom i b) i) ∧
      (s.out.driven = true → (b.state = .down ∧ b.order = .lower ∧ b.downContact.made = false) ∨
          (b.state = .up ∧ b.order = .raise ∧ b.upContact.made = false) →
        ∃ t, exec c s = .next t ∧ t.seq.state = .failedClosed ∧ t.seq.causes.boom = true ∧
          (t.boom i).source = .sequencer ∧ (b.source = .test → (t.boom i).order = .lower) ∧
          EventFrame ((now.setBoom i { b with
            state := .stopped, failures := ⟨false, false, true⟩, restMark := none }).raise .boomDisplaced (.boom i)) t) ∧
      (s.out.driven = true → (s.boom i).source = .sequencer →
        (b.state = .lowering → b.downAlone = true → AnswersBoom c s (now.setBoom i { b with
          state := .down, pending := none, settleExpiry := none, travelExpiry := none, restMark := some now.now }) i) ∧
        (b.state = .raising → b.upAlone = true → AnswersBoom c s (now.setBoom i { b with
          state := .up, pending := none, settleExpiry := none, travelExpiry := none, restMark := some now.now }) i) ∧
        (still → AnswersBoom c s (now.setBoom i b) i)) ∧
      (s.out.driven = true → (s.boom i).source = .test → s.approach.traffic = s.trafficNow →
        let stands := fun b : Boom => ∃ t, exec c s = .next t ∧ EventFrame (now.setBoom i b) t ∧ t.boom i = b
        (still → stands b) ∧
        (b.state = .raising → b.upAlone = true → stands { b with
          state := .up, pending := none, settleExpiry := none, travelExpiry := none, restMark := some now.now }) ∧
        (b.state = .lowering → b.downAlone = true → b.order = .raise → stands { b with
          state := .down, pending := none, settleExpiry := none, travelExpiry := none, restMark := some now.now }) ∧
        (b.state = .lowering → b.downAlone = true → b.order = .lower → AnswersBoom c s (now.setBoom i
          (({ b with
              state := .down, pending := none, settleExpiry := none, travelExpiry := none, restMark := some now.now
              source := .sequencer } : Boom).takeOrder (s.seq.state.order i) now.uptime s.cfg.travelMs)) i)))

/-- SETTLE_EXPIRY (R130, R128, R146): at the settle expiry of a boom in SETTLING, a pending direction whose target contact is
MADE alone takes it to UP or DOWN at once, with no rest mark; otherwise it enters LOWERING or RAISING in that direction, with
travel expiry at the settle expiry plus the travel limit. The pending direction and the settle expiry become absent. A boom
under test that reaches DOWN under a test of LOWER takes the sequencer's order again; any other stays under test. Before the
expiry, and in another state, nothing but time moves; that the expiry acts when its command comes at or after its time is the
model's reading (log 3). -/
def Obligations.SettleResult : Prop :=
  ∀ (dt : Nat) (i : BoomId) (o : Order) (e : Time) (s : State), s.mon.held = false → (s.boom i).pending = some o →
    (s.boom i).settleExpiry = some e →
    let now := s.advance dt
    let b := s.boom i
    let alone : Bool := match o with
      | .raise => b.upContact.made && !b.downContact.made
      | .lower => b.downContact.made && !b.upContact.made
    let moved : Boom :=
      if alone = true then { b with
        state := (match o with | .raise => .up | .lower => .down)
        pending := none, settleExpiry := none, travelExpiry := none, restMark := none }
      else { b with
        state := (match o with | .raise => .raising | .lower => .lowering)
        pending := none, settleExpiry := none, travelExpiry := some (after e s.cfg.travelMs), restMark := none }
    (b.state ≠ .settling ∨ reached now.now e = false → exec (.settleExpiry dt i) s = .next now) ∧
    (b.state = .settling → reached now.now e = true →
      ¬(b.source = .test ∧ b.order = .lower ∧ moved.state = .down) →
      AnswersBoom (.settleExpiry dt i) s (now.setBoom i moved) i ∧
      (b.source = .test → s.approach.traffic = s.trafficNow →
        ∃ t, exec (.settleExpiry dt i) s = .next t ∧ t.boom i = moved)) ∧
    (b.state = .settling → reached now.now e = true → b.source = .test → b.order = .lower → moved.state = .down →
      AnswersBoom (.settleExpiry dt i) s (now.setBoom i
        (({ moved with source := .sequencer } : Boom).takeOrder (s.seq.state.order i) now.uptime s.cfg.travelMs)) i)

/-- BOOM_TRAVEL_EXPIRY, REST_MARK_EXPIRY, CONTACT_CONFLICT_EXPIRY and BOOM_RECOVERY_EXPIRY (R131, R132, R134, R135, R146, R115):
past the travel limit a moving boom, and after 200 ms of contact conflict any boom, is STOPPED with that failure and its fault,
a test of it ended, and the road FAILED-CLOSED with the BOOM cause; a STOPPED boom adds a conflict to its failures; a rest mark
ends 1.0 s after it began; after 2 s at the DOWN contact a STOPPED boom is DOWN with no failures and its faults cleared. Each
has no effect before its time. The order of a recovery's three clears is the model's choice (log 7); a timer acts when its
command comes at or after its time (log 3). -/
def Obligations.BoomTimers : Prop :=
  ∀ (dt : Nat) (i : BoomId) (e : Time) (s : State), s.mon.held = false →
    let now := s.advance dt
    let b := s.boom i
    let stops := fun (c : Instr) (k : FaultKind) (f : BoomFailures) =>
      ∃ t, exec c s = .next t ∧ t.seq.state = .failedClosed ∧ t.seq.causes.boom = true ∧
        (t.boom i).source = .sequencer ∧ (b.source = .test → (t.boom i).order = .lower) ∧
        EventFrame ((now.setBoom i { b with
          state := .stopped, failures := f, pending := none, settleExpiry := none, travelExpiry := none
          restMark := none }).raise k (.boom i)) t
    (b.travelExpiry = some e →
      (s.out.driven = true → b.state = .lowering ∨ b.state = .raising → reached now.now e = true →
        stops (.boomTravelExpiry dt i) .boomTravelTimeout ⟨true, false, false⟩) ∧
      (s.out.driven = false ∨ (b.state ≠ .lowering ∧ b.state ≠ .raising) ∨ reached now.now e = false →
        exec (.boomTravelExpiry dt i) s = .next now)) ∧
    (b.restMark = some e →
      (reached now.now (after e 1000) = true →
        AnswersBoom (.restMarkExpiry dt i) s (now.setBoom i { b with restMark := none }) i) ∧
      (reached now.now (after e 1000) = false → exec (.restMarkExpiry dt i) s = .next now)) ∧
    (b.conflictSince = some e →
      (s.out.driven = true → b.state ≠ .stopped → reached now.now (after e 200) = true →
        stops (.contactConflictExpiry dt i) .boomContactConflict ⟨false, true, false⟩) ∧
      (s.out.driven = true → b.state = .stopped → b.failures.conflict = false → reached now.now (after e 200) = true →
        Answers (.contactConflictExpiry dt i) s
          ((now.setBoom i { b with failures := { b.failures with conflict := true } }).raise .boomContactConflict
            (.boom i))) ∧
      (s.out.driven = false ∨ (b.state = .stopped ∧ b.failures.conflict = true) ∨ reached now.now (after e 200) = false →
        exec (.contactConflictExpiry dt i) s = .next now)) ∧
    (b.recoverySince = some e →
      (s.out.driven = true → b.state = .stopped → reached now.now (after e 2000) = true →
        AnswersBoom (.boomRecoveryExpiry dt i) s ((((now.setBoom i { b with
          state := .down, restMark := none, recoverySince := none, failures := ⟨false, false, false⟩ }).clear
            .boomTravelTimeout (.boom i)).clear .boomContactConflict (.boom i)).clear .boomDisplaced (.boom i)) i) ∧
      (s.out.driven = false ∨ b.state ≠ .stopped ∨ reached now.now (after e 2000) = false →
        exec (.boomRecoveryExpiry dt i) s = .next now))

/-- PHASE_END, PULSE_TIMER_EXPIRY, PROVING_PULSE_END and TONE_END (R136, R138 to R141, R143, R144, R157): at the end of a phase
every channel driven the same way throughout is judged, lit by its window and dark by the stray level, and the next phase begins
where this one ended; in OPEN the pulse timer starts again at its end, and with the reds dark a pulse of 100 ms begins; at its
end the reds alone are judged by their pulse windows; at the end of a tone the coil is judged, and the other tone of the
programme begins. A channel's third wrong or right phase running fails or recovers it, with RED-LAMP-OUT, MAJOR beside a failed
red and MINOR otherwise, or AMBER-LAMP-OUT raised or cleared, and the other red's record re-graded; stray current and the coil
are raised and cleared likewise. That a lamp's own fault comes before the re-grading of the other red is the model's choice (log
7). That a phase and a tone begin where the last one ended is the model's choice (log 36); that the currents are operands of the
commands is its choice (log 30); that each acts when its command comes at or after its time, and has no effect before, is its
reading (log 3). -/
def Obligations.LampAndToneEvents : Prop :=
  (∀ (dt : Nat) (e : Time) (s : State), s.mon.held = false →
    let now := s.advance dt
    (∀ cur : Currents,
      (s.out.driven = false ∨ reached now.now s.out.flash.phaseEnd = false → exec (.phaseEnd dt cur) s = .next now) ∧
      (s.out.driven = true → reached now.now s.out.flash.phaseEnd = true →
        ∃ t, exec (.phaseEnd dt cur) s = .next t ∧ EventFrame (now.judgeAll cur).nextPhase t ∧
          (∀ c, ((s.lamp c).whole = false → Unjudged (s.lamp c) (t.lamp c)) ∧
            ((s.lamp c).whole = true → (s.lamp c).lit = true → LitJudged (s.lamp c) (t.lamp c) (s.cfg.inWindow c (cur.of c))) ∧
            ((s.lamp c).whole = true → (s.lamp c).lit = false → DarkJudged (s.lamp c) (t.lamp c) (decide (30 < cur.of c)))) ∧
          (s.out.flash.flashing = true ∨ t.out.flash.flashing = false →
            t.out.flash.phase = s.out.flash.phase.next ∧
            t.out.flash.phaseEnd = after s.out.flash.phaseEnd s.cfg.phaseMs) ∧
          (s.out.flash.flashing = false → t.out.flash.flashing = true → t.out.flash.phase = .one) ∧
          t.heads = s.heads ∧ t.sections = s.sections ∧ t.store = s.store ∧ t.mon = s.mon)) ∧
    (s.out.pulseTimer = some e →
      (reached now.now e = false → exec (.pulseTimerExpiry dt) s = .next now) ∧
      (reached now.now e = true → ∃ t, exec (.pulseTimerExpiry dt) s = .next t ∧ EventFrame now t ∧
        (t.seq.state = s.seq.state → t.out.pulseTimer = some (after e 60000) ∧
          t.out.pulse = if s.out.flash.flashing then s.out.pulse else some (after now.now 100)))) ∧
    (s.out.pulse = some e → ∀ cur : RedCurrents,
      (reached now.now e = false → exec (.provingPulseEnd dt cur) s = .next now) ∧
      (reached now.now e = true → ∃ t, exec (.provingPulseEnd dt cur) s = .next t ∧ t.out.pulse = none ∧
        EventFrame ((now.onOut fun o => { o with pulse := none }).judgePulse cur) t ∧
        (∀ c, if c.isRed then LitJudged (s.lamp c) (t.lamp c) (s.cfg.inPulseWindow c (cur.of c))
          else Unjudged (s.lamp c) (t.lamp c)) ∧
        t.heads = s.heads ∧ t.sections = s.sections ∧ t.store = s.store ∧ t.mon = s.mon)) ∧
    (∀ (mA : Nat) (o : Tone), s.out.audible.tone = some o →
      (reached now.now o.ends = false → exec (.toneEnd dt mA) s = .next now) ∧
      (reached now.now o.ends = true → ∃ t, exec (.toneEnd dt mA) s = .next t ∧
        EventFrame ((now.judgeTone mA).nextTone o) t ∧
        (let below := decide (mA < s.cfg.audibleThreshold)
          let a := s.out.audible
          let b := t.out.audible
          (below = a.openCircuit → b.coilCount = 0 ∧ b.openCircuit = a.openCircuit) ∧
          (below ≠ a.openCircuit → a.coilCount = 0 → b.coilCount = 1 ∧ b.openCircuit = a.openCircuit) ∧
          (below ≠ a.openCircuit → a.coilCount ≠ 0 → b.coilCount = 0 ∧ b.openCircuit = !a.openCircuit) ∧
          (b.programme = a.programme → b.tone = match a.programme with
            | .silent => none
            | .warning => some ⟨!o.second, s.cfg.toneHertz (!o.second), after o.ends (s.cfg.warningMs (!o.second))⟩
            | .secondTrain =>
              some ⟨!o.second, s.cfg.toneHertz (!o.second), after o.ends (s.cfg.secondTrainMs (!o.second))⟩)) ∧
        t.heads = s.heads ∧ t.sections = s.sections ∧ t.store = s.store ∧ t.mon = s.mon))) ∧
  (∀ (s : State) (c : Channel) (within : Bool) (mA : Nat), s.mon.mode ≠ .starting →
    let l := s.lamp c
    let u := s.faults
    let sec := s.seconds
    let kind : FaultKind := match c with | .amber1 | .amber2 => .amberLampOut | _ => .redLampOut
    let other : Option Channel := match c with
      | .redLeft1 => some .redRight1
      | .redRight1 => some .redLeft1
      | .redLeft2 => some .redRight2
      | .redRight2 => some .redLeft2
      | .amber1 | .amber2 => none
    (s.judgeLit c within).faults = (match l.condition, within with
      | .proven n, false =>
        if n + 1 < 3 then u
        else match other.filter fun d => (s.lamp d).failed with
          | some d => (u.raise sec kind (.lamp c) .major).regrade sec .redLampOut (.lamp d) .major
          | none => u.raise sec kind (.lamp c) .minor
      | .failed n, true =>
        if n + 1 < 3 then u
        else match other.filter fun d => (s.lamp d).failed with
          | some d => (u.clear sec kind (.lamp c)).regrade sec .redLampOut (.lamp d) .minor
          | none => u.clear sec kind (.lamp c)
      | .proven _, true | .failed _, false => u) ∧
    (s.judgeDark c mA).faults = (
      if decide (30 < mA) = l.stray ∨ l.dark + 1 < 3 then u
      else if l.stray = true then u.clear sec .lampStrayCurrent (.lamp c)
      else u.raise sec .lampStrayCurrent (.lamp c) .major) ∧
    (s.judgeTone mA).faults = (
      if decide (mA < s.cfg.audibleThreshold) = s.out.audible.openCircuit ∨ s.out.audible.coilCount = 0 then u
      else if s.out.audible.openCircuit = true then u.clear sec .audibleOpenCircuit .audible
      else u.raise sec .audibleOpenCircuit .audible .minor))

/-! ## Invariants, and rules over every step -/

/-- The invariants hold right after power-on. -/
def Obligations.ResetMeetsInvariants : Prop :=
  let s := State.reset
  QueueBounded s ∧ ProvenHolds s ∧ StoppedHolds s ∧ FaultsDistinct s.faults ∧ ClearedListed s.faults ∧ MaintenanceMatches s ∧
  ActiveMatches s ∧ StartUpShape s ∧ SectionsShaped s ∧ TableShape s ∧ BoomsShaped s ∧ OutputsFollow s ∧
  LinesFollow s ∧ RoadHeld s ∧ CausesFollow s ∧ PulseFollows s ∧ s.out.major = s.out.lamps.major ∧ s.approach.demand = s.demandNow

/-- Every step keeps the bounds of the notice queue (R162, R164, R165), empty in STARTING (R170), at most one ordinary fault
record for a kind and subject (R153), the cleared order as the list of the CLEARED records (R152), and the shapes of the section
records (R18, R21) and of the boom records (R126). -/
def Obligations.RecordsKept : Prop :=
  ∀ s t, step s = .next t →
    (QueueBounded s → QueueBounded t) ∧ (FaultsDistinct s.faults → FaultsDistinct t.faults) ∧
    (ClearedListed s.faults → ClearedListed t.faults) ∧
    (SectionsShaped s → SectionsShaped t) ∧ (BoomsShaped s → BoomsShaped t)

/-- Every step keeps the road held while trains need it: the booms under the orders of the sequencer's state, as the table of
R104 has them, tests in MAINTENANCE alone, MAINTENANCE over a closed road, start-up FAILED-CLOSED, maintenance active exactly in
MAINTENANCE and the active copy absent exactly in STARTING and UNCONFIGURED (R98, R104, R121, R145, R182, R192). Then a boom's
order changes to RAISE only when no movement is DUE or CROSSING and no protecting section is DISTURBED or RESTORING (R128). And
a boom is under test after a step only in MAINTENANCE, not STOPPED, and with the traffic condition absent, so that a test has
ended as a movement becomes DUE, a protecting section is disturbed, the boom stops or maintenance ends; a boom whose test ends
has the order of the sequencer's state (R128, R134, R146). -/
def Obligations.RoadHeldKept : Prop :=
  ∀ s t, RoadHeld s → StartUpShape s → MaintenanceMatches s → ActiveMatches s → step s = .next t →
    RoadHeld t ∧ StartUpShape t ∧ MaintenanceMatches t ∧ ActiveMatches t ∧
    (let quiet : Prop := (∀ k m, t.slot k = some m → m.state ≠ .due ∧ m.state ≠ .crossing) ∧
        (∀ x, Protects t x → (t.sect x).state ≠ .disturbed ∧ (t.sect x).state ≠ .restoring);
      (∀ i, (s.boom i).order = .lower → (t.boom i).order = .raise → quiet) ∧
      (∀ i, (t.boom i).source = .test → quiet ∧ t.mon.mode = .maintenance ∧ (t.boom i).state ≠ .stopped) ∧
      (∀ i, (s.boom i).source = .test → (t.boom i).source = .sequencer → (t.boom i).order = t.seq.state.order i)) ∧
    (∀ (q : SeqState) (i : BoomId), q.order i = match q, i with
      | .entryLowering, .entry1 | .entryLowering, .entry2 | .exitWait, .entry1 | .exitWait, .entry2 => .lower
      | .open, _ | .amber, _ | .redWarning, _ | .entryLowering, _ | .exitWait, _ | .raising, _ => .raise
      | .exitLowering, _ | .closed, _ | .reclosing, _ | .failedClosed, _ => .lower)

/-- Every step keeps the outputs as the sequencer has them driven: the reds flashing in every state but OPEN and AMBER and while
a boom is not UP, each channel lit as the phase and the state give, the audible programme that of the state (R104, R137, R143).
Every step keeps the proven flag true exactly while the sequencer is CLOSED, all four booms are DOWN, no boom is faulted and the
major lamp condition is absent (R119), the major lamp condition handed as it stands (R142), and a STOPPED boom holding the road
in FAILED-CLOSED (R115). Every step keeps the cause set as R115 and R116 give it: BOOM is in it exactly while a boom is STOPPED,
and CONFIG exactly while the mode is UNCONFIGURED or the configuration mark is set, if they were so before; LAMP, once in it,
stays until the major lamp condition is absent and is then gone, and enters only as the condition appears in a state other than
OPEN or as the last boom reaches DOWN at the end of a closing; START stays until the mode is NORMAL and is then gone. A reset
leaves START alone. Every step keeps the pulse timer running exactly in OPEN: it starts with 60 s on each entry into OPEN and
ends on leaving it, a proving pulse with it (R141), timed at the command (log 12). The flash clock begins phase one in the step
in which the reds begin to flash, and else runs on but at a PHASE_END (R136). A change of the audible programme begins tone 1 of
its pattern with its duration, or stops the tone in SILENT; else the tone sounds on but at a TONE_END (R143). -/
def Obligations.ProvenFlagKept : Prop :=
  ∀ s t, step s = .next t →
    let proven := fun u : State => (u.seq.proven = true ↔ u.seq.state = .closed ∧ u.out.booms.allDown = true ∧
        u.out.booms.anyStopped = false ∧ u.out.lamps.major = false) ∧ u.out.major = u.out.lamps.major
    let was := s.seq.causes
    let now := t.seq.causes
    (proven s → proven t) ∧ (StoppedHolds s → StoppedHolds t) ∧ (OutputsFollow s → OutputsFollow t) ∧
    (CausesFollow s → CausesFollow t) ∧
    (Resets s t → now = ⟨false, false, true, false⟩) ∧
    (¬Resets s t → CausesFollow s → s.out.major = s.out.lamps.major →
      (was.lamp = true → (now.lamp = true ↔ t.out.lamps.major = true)) ∧
      (was.lamp = false → now.lamp = true →
        (s.out.major = false ∧ s.seq.state ≠ .open) ∨ (t.out.booms.allDown = true ∧
          (s.seq.state = .exitWait ∨ s.seq.state = .exitLowering ∨ s.seq.state = .reclosing))) ∧
      (now.start = true ↔ was.start = true ∧ t.mon.mode ≠ .normal)) ∧
    (RoadHeld s → StartUpShape s → PulseFollows s → PulseFollows t ∧ (s.seq.state = .open → t.seq.state = .open →
      t.out.pulseTimer = s.out.pulseTimer ∨ ∃ dt rest, s.pending = .pulseTimerExpiry dt :: rest)) ∧
    (s.seq.state ≠ .open → t.seq.state = .open → t.out.pulseTimer = some (after t.now 60000)) ∧
    (s.out.flash.flashing = false → t.out.flash.flashing = true →
      t.out.flash.phase = .one ∧ t.out.flash.phaseEnd = after t.now t.cfg.phaseMs) ∧
    (t.out.audible.programme ≠ s.out.audible.programme → t.out.audible.tone = t.firstTone) ∧
    (¬Resets s t → (∀ dt rest, s.pending ≠ .stabilisationWaitEnd dt :: rest) →
      (s.out.flash.flashing = true ∨ t.out.flash.flashing = false → (∀ dt cur rest, s.pending ≠ .phaseEnd dt cur :: rest) →
        t.out.flash.phase = s.out.flash.phase ∧ t.out.flash.phaseEnd = s.out.flash.phaseEnd) ∧
      (t.out.audible.programme = s.out.audible.programme → (∀ dt mA rest, s.pending ≠ .toneEnd dt mA :: rest) →
        t.out.audible.tone = s.out.audible.tone))

/-- Every step keeps the attention lines as R180 gives them: deasserted in OFF, at the level of the queue in NOTICE, asserted
while a pulse lasts in CHANGE and CHANGE-AND-STEP; Lane B's deasserted in SINGLE. A step that advances the generation number,
or in CHANGE-AND-STEP changes the sequencer state, asserts the line for 50 µs from its event, and no other step begins or
extends a pulse. ATTENTION_PULSE_END ends the pulse and deasserts the line, unless the event itself starts a new pulse; before
the end it has no effect. That it acts when its command comes at or after the end is the model's reading (log 3). -/
def Obligations.AttentionLinesKept : Prop :=
  (∀ s t, LinesFollow s → step s = .next t → LinesFollow t) ∧
  (∀ s t p, step s = .next t → ¬Resets s t → (p = .laneB → t.cfg.dual = true) →
    let advanced := t.tracker.generation ≠ s.tracker.generation
    let stepped := t.seq.state ≠ s.seq.state
    let pulsed := ((t.port p).mode = .change ∧ advanced) ∨ ((t.port p).mode = .changeAndStep ∧ (advanced ∨ stepped))
    (pulsed → (t.port p).pulseEnd = some (t.uptime + 5) ∧ (t.port p).line = true) ∧
    (¬pulsed → (t.port p).pulseEnd = (s.port p).pulseEnd ∨ (t.port p).pulseEnd = none)) ∧
  (∀ (dt : Nat) (p : Port) (s : State), s.mon.held = false →
    ((s.port p).pulseEnd = none → exec (.attentionPulseEnd dt p) s = .next (s.advance dt)) ∧
    (∀ e, (s.port p).pulseEnd = some e →
      (s.uptime + dt < e → exec (.attentionPulseEnd dt p) s = .next (s.advance dt)) ∧
      (e ≤ s.uptime + dt → ∃ t, exec (.attentionPulseEnd dt p) s = .next t ∧ EventFrame (s.advance dt) t ∧
        ((s.port p).mode = .change ∨ (s.port p).mode = .changeAndStep →
          t.tracker.generation = s.tracker.generation → t.seq.state = s.seq.state →
          (t.port p).pulseEnd = none ∧ (t.port p).line = false))))

/-- Closure demand is present after a step exactly while a live movement is DUE or CROSSING, a protecting section is DISTURBED
or RESTORING, or a hold stands (R77), if it was before; and where it appears in a step no consent stands after it (R92). The
raise blocker is present after a step exactly while a live ARRIVING movement's due time lies no further off than the raise
margin of its governing profile, unless the step leaves it as it was; a step that changes a head, a section, the movement
table, demand, the sequencer, an output or the active copy forms it anew (R79). That a step without such a change, as that of
a request which only reads, forms nothing anew, and the moment of its appearance has a command of its own, is the model's
choice (logs 1 and 3). -/
def Obligations.DemandHanded : Prop :=
  let formed := fun u : State => (u.approach.demand = true ↔
    (∃ k m, u.slot k = some m ∧ (m.state = .due ∨ m.state = .crossing)) ∨
    (∃ x, Withheld u x) ∨
    u.stances.combinedHold = true)
  let blocked := fun u : State => (u.approach.blocker = true ↔ ∃ k m d, u.slot k = some m ∧ m.state = .arriving ∧
    m.dueTime = some d ∧ reached (after u.now ((u.governingProfile m).raiseMargin.toNat * 1000)) d = true)
  ∀ s t, step s = .next t →
    (formed s → formed t) ∧ (t.approach.blocker = s.approach.blocker ∨ blocked t) ∧
    (t.heads ≠ s.heads ∨ t.sections ≠ s.sections ∨ t.tracker ≠ s.tracker ∨ t.approach ≠ s.approach ∨ t.seq ≠ s.seq ∨
      t.out ≠ s.out ∨ t.store.active ≠ s.store.active → blocked t) ∧
    (s.approach.demand = false → t.approach.demand = true → ∀ l, (t.lane l).consent = none)

/-- The closure number changes only by one, at each entry into AMBER, at each entry into RECLOSING, and at each entry into
FAILED-CLOSED from OPEN or RAISING; power-on and supply reset set it to 0, and a restart keeps it (R105). The premises are the
invariants of start-up and maintenance. -/
def Obligations.ClosureNumberRule : Prop :=
  ∀ s t, RoadHeld s → StartUpShape s → step s = .next t →
    let zeroed := (∃ v rest, s.pending = .powerOn v :: rest) ∨ (s.mon.held = false ∧ t.mon.held = true)
    let begun := (s.seq.state ≠ .amber ∧ t.seq.state = .amber) ∨ (s.seq.state ≠ .reclosing ∧ t.seq.state = .reclosing) ∨
      ((s.seq.state = .open ∨ s.seq.state = .raising) ∧ t.seq.state = .failedClosed)
    (zeroed → t.seq.closure = 0) ∧ (¬zeroed → begun → t.seq.closure = s.seq.closure + 1) ∧
    (¬zeroed → ¬begun → t.seq.closure = s.seq.closure)

/-- The generation number goes up by one at a step exactly if it changes a section record or a movement record, or is an
accepted commit that changes the topology, and stands otherwise; it is 0 after every reset (R58, R59). That such a commit
advances it even where no record changes is the model's reading (log 37), and so is that a record given an equal further cause
has not changed (log 41). -/
def Obligations.GenerationRule : Prop :=
  ∀ s t, step s = .next t →
    let changed := t.sections ≠ s.sections ∨
      (∃ k, (t.slot k).map Movement.record ≠ (s.slot k).map Movement.record) ∨ TopologyCommitted s
    (Resets s t → t.tracker.generation = 0) ∧
    (¬Resets s t → changed → t.tracker.generation = s.tracker.generation + 1) ∧
    (¬Resets s t → ¬changed → t.tracker.generation = s.tracker.generation)
end

