-- ==== Sys2Proof/Laws/State.lean ====
section
/-!
SUPPORT. One lemma per field and update of `State`, so that no later proof unfolds a record update: the eleven block updates,
the passing of time, and the writes of one record (a head, a section, a slot, a boom, a channel, a lane, a port).
-/
namespace Sys2Proof.Machine.State

/-! ## onHeads -/

@[simp] theorem onHeads_uptime (s : State) (f : Vector Head 12 → Vector Head 12) : (s.onHeads f).uptime = s.uptime := rfl
@[simp] theorem onHeads_heads (s : State) (f : Vector Head 12 → Vector Head 12) : (s.onHeads f).heads = f s.heads := rfl
@[simp] theorem onHeads_sections (s : State) (f : Vector Head 12 → Vector Head 12) : (s.onHeads f).sections = s.sections := rfl
@[simp] theorem onHeads_tracker (s : State) (f : Vector Head 12 → Vector Head 12) : (s.onHeads f).tracker = s.tracker := rfl
@[simp] theorem onHeads_approach (s : State) (f : Vector Head 12 → Vector Head 12) : (s.onHeads f).approach = s.approach := rfl
@[simp] theorem onHeads_stances (s : State) (f : Vector Head 12 → Vector Head 12) : (s.onHeads f).stances = s.stances := rfl
@[simp] theorem onHeads_seq (s : State) (f : Vector Head 12 → Vector Head 12) : (s.onHeads f).seq = s.seq := rfl
@[simp] theorem onHeads_out (s : State) (f : Vector Head 12 → Vector Head 12) : (s.onHeads f).out = s.out := rfl
@[simp] theorem onHeads_faults (s : State) (f : Vector Head 12 → Vector Head 12) : (s.onHeads f).faults = s.faults := rfl
@[simp] theorem onHeads_ports (s : State) (f : Vector Head 12 → Vector Head 12) : (s.onHeads f).ports = s.ports := rfl
@[simp] theorem onHeads_store (s : State) (f : Vector Head 12 → Vector Head 12) : (s.onHeads f).store = s.store := rfl
@[simp] theorem onHeads_mon (s : State) (f : Vector Head 12 → Vector Head 12) : (s.onHeads f).mon = s.mon := rfl
@[simp] theorem onHeads_pending (s : State) (f : Vector Head 12 → Vector Head 12) : (s.onHeads f).pending = s.pending := rfl

/-! ## onSections -/

@[simp] theorem onSections_uptime (s : State) (f : Vector Section 10 → Vector Section 10) : (s.onSections f).uptime = s.uptime := rfl
@[simp] theorem onSections_heads (s : State) (f : Vector Section 10 → Vector Section 10) : (s.onSections f).heads = s.heads := rfl
@[simp] theorem onSections_sections (s : State) (f : Vector Section 10 → Vector Section 10) : (s.onSections f).sections = f s.sections := rfl
@[simp] theorem onSections_tracker (s : State) (f : Vector Section 10 → Vector Section 10) : (s.onSections f).tracker = s.tracker := rfl
@[simp] theorem onSections_approach (s : State) (f : Vector Section 10 → Vector Section 10) : (s.onSections f).approach = s.approach := rfl
@[simp] theorem onSections_stances (s : State) (f : Vector Section 10 → Vector Section 10) : (s.onSections f).stances = s.stances := rfl
@[simp] theorem onSections_seq (s : State) (f : Vector Section 10 → Vector Section 10) : (s.onSections f).seq = s.seq := rfl
@[simp] theorem onSections_out (s : State) (f : Vector Section 10 → Vector Section 10) : (s.onSections f).out = s.out := rfl
@[simp] theorem onSections_faults (s : State) (f : Vector Section 10 → Vector Section 10) : (s.onSections f).faults = s.faults := rfl
@[simp] theorem onSections_ports (s : State) (f : Vector Section 10 → Vector Section 10) : (s.onSections f).ports = s.ports := rfl
@[simp] theorem onSections_store (s : State) (f : Vector Section 10 → Vector Section 10) : (s.onSections f).store = s.store := rfl
@[simp] theorem onSections_mon (s : State) (f : Vector Section 10 → Vector Section 10) : (s.onSections f).mon = s.mon := rfl
@[simp] theorem onSections_pending (s : State) (f : Vector Section 10 → Vector Section 10) : (s.onSections f).pending = s.pending := rfl

/-! ## onTracker -/

@[simp] theorem onTracker_uptime (s : State) (f : Tracker → Tracker) : (s.onTracker f).uptime = s.uptime := rfl
@[simp] theorem onTracker_heads (s : State) (f : Tracker → Tracker) : (s.onTracker f).heads = s.heads := rfl
@[simp] theorem onTracker_sections (s : State) (f : Tracker → Tracker) : (s.onTracker f).sections = s.sections := rfl
@[simp] theorem onTracker_tracker (s : State) (f : Tracker → Tracker) : (s.onTracker f).tracker = f s.tracker := rfl
@[simp] theorem onTracker_approach (s : State) (f : Tracker → Tracker) : (s.onTracker f).approach = s.approach := rfl
@[simp] theorem onTracker_stances (s : State) (f : Tracker → Tracker) : (s.onTracker f).stances = s.stances := rfl
@[simp] theorem onTracker_seq (s : State) (f : Tracker → Tracker) : (s.onTracker f).seq = s.seq := rfl
@[simp] theorem onTracker_out (s : State) (f : Tracker → Tracker) : (s.onTracker f).out = s.out := rfl
@[simp] theorem onTracker_faults (s : State) (f : Tracker → Tracker) : (s.onTracker f).faults = s.faults := rfl
@[simp] theorem onTracker_ports (s : State) (f : Tracker → Tracker) : (s.onTracker f).ports = s.ports := rfl
@[simp] theorem onTracker_store (s : State) (f : Tracker → Tracker) : (s.onTracker f).store = s.store := rfl
@[simp] theorem onTracker_mon (s : State) (f : Tracker → Tracker) : (s.onTracker f).mon = s.mon := rfl
@[simp] theorem onTracker_pending (s : State) (f : Tracker → Tracker) : (s.onTracker f).pending = s.pending := rfl

/-! ## onApproach -/

@[simp] theorem onApproach_uptime (s : State) (f : Approach → Approach) : (s.onApproach f).uptime = s.uptime := rfl
@[simp] theorem onApproach_heads (s : State) (f : Approach → Approach) : (s.onApproach f).heads = s.heads := rfl
@[simp] theorem onApproach_sections (s : State) (f : Approach → Approach) : (s.onApproach f).sections = s.sections := rfl
@[simp] theorem onApproach_tracker (s : State) (f : Approach → Approach) : (s.onApproach f).tracker = s.tracker := rfl
@[simp] theorem onApproach_approach (s : State) (f : Approach → Approach) : (s.onApproach f).approach = f s.approach := rfl
@[simp] theorem onApproach_stances (s : State) (f : Approach → Approach) : (s.onApproach f).stances = s.stances := rfl
@[simp] theorem onApproach_seq (s : State) (f : Approach → Approach) : (s.onApproach f).seq = s.seq := rfl
@[simp] theorem onApproach_out (s : State) (f : Approach → Approach) : (s.onApproach f).out = s.out := rfl
@[simp] theorem onApproach_faults (s : State) (f : Approach → Approach) : (s.onApproach f).faults = s.faults := rfl
@[simp] theorem onApproach_ports (s : State) (f : Approach → Approach) : (s.onApproach f).ports = s.ports := rfl
@[simp] theorem onApproach_store (s : State) (f : Approach → Approach) : (s.onApproach f).store = s.store := rfl
@[simp] theorem onApproach_mon (s : State) (f : Approach → Approach) : (s.onApproach f).mon = s.mon := rfl
@[simp] theorem onApproach_pending (s : State) (f : Approach → Approach) : (s.onApproach f).pending = s.pending := rfl

/-! ## onStances -/

@[simp] theorem onStances_uptime (s : State) (f : Stances → Stances) : (s.onStances f).uptime = s.uptime := rfl
@[simp] theorem onStances_heads (s : State) (f : Stances → Stances) : (s.onStances f).heads = s.heads := rfl
@[simp] theorem onStances_sections (s : State) (f : Stances → Stances) : (s.onStances f).sections = s.sections := rfl
@[simp] theorem onStances_tracker (s : State) (f : Stances → Stances) : (s.onStances f).tracker = s.tracker := rfl
@[simp] theorem onStances_approach (s : State) (f : Stances → Stances) : (s.onStances f).approach = s.approach := rfl
@[simp] theorem onStances_stances (s : State) (f : Stances → Stances) : (s.onStances f).stances = f s.stances := rfl
@[simp] theorem onStances_seq (s : State) (f : Stances → Stances) : (s.onStances f).seq = s.seq := rfl
@[simp] theorem onStances_out (s : State) (f : Stances → Stances) : (s.onStances f).out = s.out := rfl
@[simp] theorem onStances_faults (s : State) (f : Stances → Stances) : (s.onStances f).faults = s.faults := rfl
@[simp] theorem onStances_ports (s : State) (f : Stances → Stances) : (s.onStances f).ports = s.ports := rfl
@[simp] theorem onStances_store (s : State) (f : Stances → Stances) : (s.onStances f).store = s.store := rfl
@[simp] theorem onStances_mon (s : State) (f : Stances → Stances) : (s.onStances f).mon = s.mon := rfl
@[simp] theorem onStances_pending (s : State) (f : Stances → Stances) : (s.onStances f).pending = s.pending := rfl

/-! ## onSeq -/

@[simp] theorem onSeq_uptime (s : State) (f : Sequencer → Sequencer) : (s.onSeq f).uptime = s.uptime := rfl
@[simp] theorem onSeq_heads (s : State) (f : Sequencer → Sequencer) : (s.onSeq f).heads = s.heads := rfl
@[simp] theorem onSeq_sections (s : State) (f : Sequencer → Sequencer) : (s.onSeq f).sections = s.sections := rfl
@[simp] theorem onSeq_tracker (s : State) (f : Sequencer → Sequencer) : (s.onSeq f).tracker = s.tracker := rfl
@[simp] theorem onSeq_approach (s : State) (f : Sequencer → Sequencer) : (s.onSeq f).approach = s.approach := rfl
@[simp] theorem onSeq_stances (s : State) (f : Sequencer → Sequencer) : (s.onSeq f).stances = s.stances := rfl
@[simp] theorem onSeq_seq (s : State) (f : Sequencer → Sequencer) : (s.onSeq f).seq = f s.seq := rfl
@[simp] theorem onSeq_out (s : State) (f : Sequencer → Sequencer) : (s.onSeq f).out = s.out := rfl
@[simp] theorem onSeq_faults (s : State) (f : Sequencer → Sequencer) : (s.onSeq f).faults = s.faults := rfl
@[simp] theorem onSeq_ports (s : State) (f : Sequencer → Sequencer) : (s.onSeq f).ports = s.ports := rfl
@[simp] theorem onSeq_store (s : State) (f : Sequencer → Sequencer) : (s.onSeq f).store = s.store := rfl
@[simp] theorem onSeq_mon (s : State) (f : Sequencer → Sequencer) : (s.onSeq f).mon = s.mon := rfl
@[simp] theorem onSeq_pending (s : State) (f : Sequencer → Sequencer) : (s.onSeq f).pending = s.pending := rfl

/-! ## onOut -/

@[simp] theorem onOut_uptime (s : State) (f : Outputs → Outputs) : (s.onOut f).uptime = s.uptime := rfl
@[simp] theorem onOut_heads (s : State) (f : Outputs → Outputs) : (s.onOut f).heads = s.heads := rfl
@[simp] theorem onOut_sections (s : State) (f : Outputs → Outputs) : (s.onOut f).sections = s.sections := rfl
@[simp] theorem onOut_tracker (s : State) (f : Outputs → Outputs) : (s.onOut f).tracker = s.tracker := rfl
@[simp] theorem onOut_approach (s : State) (f : Outputs → Outputs) : (s.onOut f).approach = s.approach := rfl
@[simp] theorem onOut_stances (s : State) (f : Outputs → Outputs) : (s.onOut f).stances = s.stances := rfl
@[simp] theorem onOut_seq (s : State) (f : Outputs → Outputs) : (s.onOut f).seq = s.seq := rfl
@[simp] theorem onOut_out (s : State) (f : Outputs → Outputs) : (s.onOut f).out = f s.out := rfl
@[simp] theorem onOut_faults (s : State) (f : Outputs → Outputs) : (s.onOut f).faults = s.faults := rfl
@[simp] theorem onOut_ports (s : State) (f : Outputs → Outputs) : (s.onOut f).ports = s.ports := rfl
@[simp] theorem onOut_store (s : State) (f : Outputs → Outputs) : (s.onOut f).store = s.store := rfl
@[simp] theorem onOut_mon (s : State) (f : Outputs → Outputs) : (s.onOut f).mon = s.mon := rfl
@[simp] theorem onOut_pending (s : State) (f : Outputs → Outputs) : (s.onOut f).pending = s.pending := rfl

/-! ## onFaults -/

@[simp] theorem onFaults_uptime (s : State) (f : FaultUnit → FaultUnit) : (s.onFaults f).uptime = s.uptime := rfl
@[simp] theorem onFaults_heads (s : State) (f : FaultUnit → FaultUnit) : (s.onFaults f).heads = s.heads := rfl
@[simp] theorem onFaults_sections (s : State) (f : FaultUnit → FaultUnit) : (s.onFaults f).sections = s.sections := rfl
@[simp] theorem onFaults_tracker (s : State) (f : FaultUnit → FaultUnit) : (s.onFaults f).tracker = s.tracker := rfl
@[simp] theorem onFaults_approach (s : State) (f : FaultUnit → FaultUnit) : (s.onFaults f).approach = s.approach := rfl
@[simp] theorem onFaults_stances (s : State) (f : FaultUnit → FaultUnit) : (s.onFaults f).stances = s.stances := rfl
@[simp] theorem onFaults_seq (s : State) (f : FaultUnit → FaultUnit) : (s.onFaults f).seq = s.seq := rfl
@[simp] theorem onFaults_out (s : State) (f : FaultUnit → FaultUnit) : (s.onFaults f).out = s.out := rfl
@[simp] theorem onFaults_faults (s : State) (f : FaultUnit → FaultUnit) : (s.onFaults f).faults = f s.faults := rfl
@[simp] theorem onFaults_ports (s : State) (f : FaultUnit → FaultUnit) : (s.onFaults f).ports = s.ports := rfl
@[simp] theorem onFaults_store (s : State) (f : FaultUnit → FaultUnit) : (s.onFaults f).store = s.store := rfl
@[simp] theorem onFaults_mon (s : State) (f : FaultUnit → FaultUnit) : (s.onFaults f).mon = s.mon := rfl
@[simp] theorem onFaults_pending (s : State) (f : FaultUnit → FaultUnit) : (s.onFaults f).pending = s.pending := rfl

/-! ## onPorts -/

@[simp] theorem onPorts_uptime (s : State) (f : Ports → Ports) : (s.onPorts f).uptime = s.uptime := rfl
@[simp] theorem onPorts_heads (s : State) (f : Ports → Ports) : (s.onPorts f).heads = s.heads := rfl
@[simp] theorem onPorts_sections (s : State) (f : Ports → Ports) : (s.onPorts f).sections = s.sections := rfl
@[simp] theorem onPorts_tracker (s : State) (f : Ports → Ports) : (s.onPorts f).tracker = s.tracker := rfl
@[simp] theorem onPorts_approach (s : State) (f : Ports → Ports) : (s.onPorts f).approach = s.approach := rfl
@[simp] theorem onPorts_stances (s : State) (f : Ports → Ports) : (s.onPorts f).stances = s.stances := rfl
@[simp] theorem onPorts_seq (s : State) (f : Ports → Ports) : (s.onPorts f).seq = s.seq := rfl
@[simp] theorem onPorts_out (s : State) (f : Ports → Ports) : (s.onPorts f).out = s.out := rfl
@[simp] theorem onPorts_faults (s : State) (f : Ports → Ports) : (s.onPorts f).faults = s.faults := rfl
@[simp] theorem onPorts_ports (s : State) (f : Ports → Ports) : (s.onPorts f).ports = f s.ports := rfl
@[simp] theorem onPorts_store (s : State) (f : Ports → Ports) : (s.onPorts f).store = s.store := rfl
@[simp] theorem onPorts_mon (s : State) (f : Ports → Ports) : (s.onPorts f).mon = s.mon := rfl
@[simp] theorem onPorts_pending (s : State) (f : Ports → Ports) : (s.onPorts f).pending = s.pending := rfl

/-! ## onStore -/

@[simp] theorem onStore_uptime (s : State) (f : Store → Store) : (s.onStore f).uptime = s.uptime := rfl
@[simp] theorem onStore_heads (s : State) (f : Store → Store) : (s.onStore f).heads = s.heads := rfl
@[simp] theorem onStore_sections (s : State) (f : Store → Store) : (s.onStore f).sections = s.sections := rfl
@[simp] theorem onStore_tracker (s : State) (f : Store → Store) : (s.onStore f).tracker = s.tracker := rfl
@[simp] theorem onStore_approach (s : State) (f : Store → Store) : (s.onStore f).approach = s.approach := rfl
@[simp] theorem onStore_stances (s : State) (f : Store → Store) : (s.onStore f).stances = s.stances := rfl
@[simp] theorem onStore_seq (s : State) (f : Store → Store) : (s.onStore f).seq = s.seq := rfl
@[simp] theorem onStore_out (s : State) (f : Store → Store) : (s.onStore f).out = s.out := rfl
@[simp] theorem onStore_faults (s : State) (f : Store → Store) : (s.onStore f).faults = s.faults := rfl
@[simp] theorem onStore_ports (s : State) (f : Store → Store) : (s.onStore f).ports = s.ports := rfl
@[simp] theorem onStore_store (s : State) (f : Store → Store) : (s.onStore f).store = f s.store := rfl
@[simp] theorem onStore_mon (s : State) (f : Store → Store) : (s.onStore f).mon = s.mon := rfl
@[simp] theorem onStore_pending (s : State) (f : Store → Store) : (s.onStore f).pending = s.pending := rfl

/-! ## onMon -/

@[simp] theorem onMon_uptime (s : State) (f : Monitor → Monitor) : (s.onMon f).uptime = s.uptime := rfl
@[simp] theorem onMon_heads (s : State) (f : Monitor → Monitor) : (s.onMon f).heads = s.heads := rfl
@[simp] theorem onMon_sections (s : State) (f : Monitor → Monitor) : (s.onMon f).sections = s.sections := rfl
@[simp] theorem onMon_tracker (s : State) (f : Monitor → Monitor) : (s.onMon f).tracker = s.tracker := rfl
@[simp] theorem onMon_approach (s : State) (f : Monitor → Monitor) : (s.onMon f).approach = s.approach := rfl
@[simp] theorem onMon_stances (s : State) (f : Monitor → Monitor) : (s.onMon f).stances = s.stances := rfl
@[simp] theorem onMon_seq (s : State) (f : Monitor → Monitor) : (s.onMon f).seq = s.seq := rfl
@[simp] theorem onMon_out (s : State) (f : Monitor → Monitor) : (s.onMon f).out = s.out := rfl
@[simp] theorem onMon_faults (s : State) (f : Monitor → Monitor) : (s.onMon f).faults = s.faults := rfl
@[simp] theorem onMon_ports (s : State) (f : Monitor → Monitor) : (s.onMon f).ports = s.ports := rfl
@[simp] theorem onMon_store (s : State) (f : Monitor → Monitor) : (s.onMon f).store = s.store := rfl
@[simp] theorem onMon_mon (s : State) (f : Monitor → Monitor) : (s.onMon f).mon = f s.mon := rfl
@[simp] theorem onMon_pending (s : State) (f : Monitor → Monitor) : (s.onMon f).pending = s.pending := rfl

/-! ## The passing of time -/

@[simp] theorem advance_uptime (s : State) (dt : Nat) : (s.advance dt).uptime = s.uptime + dt := rfl
@[simp] theorem advance_heads (s : State) (dt : Nat) : (s.advance dt).heads = s.heads := rfl
@[simp] theorem advance_sections (s : State) (dt : Nat) : (s.advance dt).sections = s.sections := rfl
@[simp] theorem advance_tracker (s : State) (dt : Nat) : (s.advance dt).tracker = s.tracker := rfl
@[simp] theorem advance_approach (s : State) (dt : Nat) : (s.advance dt).approach = s.approach := rfl
@[simp] theorem advance_stances (s : State) (dt : Nat) : (s.advance dt).stances = s.stances := rfl
@[simp] theorem advance_seq (s : State) (dt : Nat) : (s.advance dt).seq = s.seq := rfl
@[simp] theorem advance_out (s : State) (dt : Nat) : (s.advance dt).out = s.out := rfl
@[simp] theorem advance_faults (s : State) (dt : Nat) : (s.advance dt).faults = s.faults := rfl
@[simp] theorem advance_ports (s : State) (dt : Nat) : (s.advance dt).ports = s.ports := rfl
@[simp] theorem advance_store (s : State) (dt : Nat) : (s.advance dt).store = s.store := rfl
@[simp] theorem advance_mon (s : State) (dt : Nat) : (s.advance dt).mon = s.mon := rfl
@[simp] theorem advance_pending (s : State) (dt : Nat) : (s.advance dt).pending = s.pending := rfl

/-! ## setHead -/

@[simp] theorem setHead_uptime (s : State) (h : HeadId) (r : Head) : (s.setHead h r).uptime = s.uptime := rfl
@[simp] theorem setHead_heads (s : State) (h : HeadId) (r : Head) : (s.setHead h r).heads = s.heads.set h r := rfl
@[simp] theorem setHead_sections (s : State) (h : HeadId) (r : Head) : (s.setHead h r).sections = s.sections := rfl
@[simp] theorem setHead_tracker (s : State) (h : HeadId) (r : Head) : (s.setHead h r).tracker = s.tracker := rfl
@[simp] theorem setHead_approach (s : State) (h : HeadId) (r : Head) : (s.setHead h r).approach = s.approach := rfl
@[simp] theorem setHead_stances (s : State) (h : HeadId) (r : Head) : (s.setHead h r).stances = s.stances := rfl
@[simp] theorem setHead_seq (s : State) (h : HeadId) (r : Head) : (s.setHead h r).seq = s.seq := rfl
@[simp] theorem setHead_out (s : State) (h : HeadId) (r : Head) : (s.setHead h r).out = s.out := rfl
@[simp] theorem setHead_faults (s : State) (h : HeadId) (r : Head) : (s.setHead h r).faults = s.faults := rfl
@[simp] theorem setHead_ports (s : State) (h : HeadId) (r : Head) : (s.setHead h r).ports = s.ports := rfl
@[simp] theorem setHead_store (s : State) (h : HeadId) (r : Head) : (s.setHead h r).store = s.store := rfl
@[simp] theorem setHead_mon (s : State) (h : HeadId) (r : Head) : (s.setHead h r).mon = s.mon := rfl
@[simp] theorem setHead_pending (s : State) (h : HeadId) (r : Head) : (s.setHead h r).pending = s.pending := rfl

/-! ## setSection -/

@[simp] theorem setSection_uptime (s : State) (x : SectionId) (r : Section) :
    (s.setSection x r).uptime = s.uptime := rfl
@[simp] theorem setSection_heads (s : State) (x : SectionId) (r : Section) : (s.setSection x r).heads = s.heads := rfl
@[simp] theorem setSection_sections (s : State) (x : SectionId) (r : Section) :
    (s.setSection x r).sections = s.sections.set x r := rfl
@[simp] theorem setSection_tracker (s : State) (x : SectionId) (r : Section) :
    (s.setSection x r).tracker = s.tracker := rfl
@[simp] theorem setSection_approach (s : State) (x : SectionId) (r : Section) :
    (s.setSection x r).approach = s.approach := rfl
@[simp] theorem setSection_stances (s : State) (x : SectionId) (r : Section) :
    (s.setSection x r).stances = s.stances := rfl
@[simp] theorem setSection_seq (s : State) (x : SectionId) (r : Section) : (s.setSection x r).seq = s.seq := rfl
@[simp] theorem setSection_out (s : State) (x : SectionId) (r : Section) : (s.setSection x r).out = s.out := rfl
@[simp] theorem setSection_faults (s : State) (x : SectionId) (r : Section) :
    (s.setSection x r).faults = s.faults := rfl
@[simp] theorem setSection_ports (s : State) (x : SectionId) (r : Section) : (s.setSection x r).ports = s.ports := rfl
@[simp] theorem setSection_store (s : State) (x : SectionId) (r : Section) : (s.setSection x r).store = s.store := rfl
@[simp] theorem setSection_mon (s : State) (x : SectionId) (r : Section) : (s.setSection x r).mon = s.mon := rfl
@[simp] theorem setSection_pending (s : State) (x : SectionId) (r : Section) :
    (s.setSection x r).pending = s.pending := rfl

/-! ## setSlot -/

@[simp] theorem setSlot_uptime (s : State) (k : SlotId) (m : Option Movement) :
    (s.setSlot k m).uptime = s.uptime := rfl
@[simp] theorem setSlot_heads (s : State) (k : SlotId) (m : Option Movement) : (s.setSlot k m).heads = s.heads := rfl
@[simp] theorem setSlot_sections (s : State) (k : SlotId) (m : Option Movement) :
    (s.setSlot k m).sections = s.sections := rfl
@[simp] theorem setSlot_tracker (s : State) (k : SlotId) (m : Option Movement) :
    (s.setSlot k m).tracker = { s.tracker with slots := s.tracker.slots.set k m } := rfl
@[simp] theorem setSlot_approach (s : State) (k : SlotId) (m : Option Movement) :
    (s.setSlot k m).approach = s.approach := rfl
@[simp] theorem setSlot_stances (s : State) (k : SlotId) (m : Option Movement) :
    (s.setSlot k m).stances = s.stances := rfl
@[simp] theorem setSlot_seq (s : State) (k : SlotId) (m : Option Movement) : (s.setSlot k m).seq = s.seq := rfl
@[simp] theorem setSlot_out (s : State) (k : SlotId) (m : Option Movement) : (s.setSlot k m).out = s.out := rfl
@[simp] theorem setSlot_faults (s : State) (k : SlotId) (m : Option Movement) :
    (s.setSlot k m).faults = s.faults := rfl
@[simp] theorem setSlot_ports (s : State) (k : SlotId) (m : Option Movement) : (s.setSlot k m).ports = s.ports := rfl
@[simp] theorem setSlot_store (s : State) (k : SlotId) (m : Option Movement) : (s.setSlot k m).store = s.store := rfl
@[simp] theorem setSlot_mon (s : State) (k : SlotId) (m : Option Movement) : (s.setSlot k m).mon = s.mon := rfl
@[simp] theorem setSlot_pending (s : State) (k : SlotId) (m : Option Movement) :
    (s.setSlot k m).pending = s.pending := rfl

/-! ## create -/

@[simp] theorem create_uptime (s : State) (k : SlotId) (m : Movement) : (s.create k m).uptime = s.uptime := rfl
@[simp] theorem create_heads (s : State) (k : SlotId) (m : Movement) : (s.create k m).heads = s.heads := rfl
@[simp] theorem create_sections (s : State) (k : SlotId) (m : Movement) : (s.create k m).sections = s.sections := rfl
@[simp] theorem create_tracker (s : State) (k : SlotId) (m : Movement) :
    (s.create k m).tracker = { s.tracker with slots := s.tracker.slots.set k (some m), counter := counterAfter m.number } := rfl
@[simp] theorem create_approach (s : State) (k : SlotId) (m : Movement) : (s.create k m).approach = s.approach := rfl
@[simp] theorem create_stances (s : State) (k : SlotId) (m : Movement) : (s.create k m).stances = s.stances := rfl
@[simp] theorem create_seq (s : State) (k : SlotId) (m : Movement) : (s.create k m).seq = s.seq := rfl
@[simp] theorem create_out (s : State) (k : SlotId) (m : Movement) : (s.create k m).out = s.out := rfl
@[simp] theorem create_faults (s : State) (k : SlotId) (m : Movement) : (s.create k m).faults = s.faults.giveNumber m.number := rfl
@[simp] theorem create_ports (s : State) (k : SlotId) (m : Movement) : (s.create k m).ports = s.ports := rfl
@[simp] theorem create_store (s : State) (k : SlotId) (m : Movement) : (s.create k m).store = s.store := rfl
@[simp] theorem create_mon (s : State) (k : SlotId) (m : Movement) : (s.create k m).mon = s.mon := rfl
@[simp] theorem create_pending (s : State) (k : SlotId) (m : Movement) : (s.create k m).pending = s.pending := rfl

/-! ## setBoom -/

@[simp] theorem setBoom_uptime (s : State) (i : BoomId) (b : Boom) : (s.setBoom i b).uptime = s.uptime := rfl
@[simp] theorem setBoom_heads (s : State) (i : BoomId) (b : Boom) : (s.setBoom i b).heads = s.heads := rfl
@[simp] theorem setBoom_sections (s : State) (i : BoomId) (b : Boom) : (s.setBoom i b).sections = s.sections := rfl
@[simp] theorem setBoom_tracker (s : State) (i : BoomId) (b : Boom) : (s.setBoom i b).tracker = s.tracker := rfl
@[simp] theorem setBoom_approach (s : State) (i : BoomId) (b : Boom) : (s.setBoom i b).approach = s.approach := rfl
@[simp] theorem setBoom_stances (s : State) (i : BoomId) (b : Boom) : (s.setBoom i b).stances = s.stances := rfl
@[simp] theorem setBoom_seq (s : State) (i : BoomId) (b : Boom) : (s.setBoom i b).seq = s.seq := rfl
@[simp] theorem setBoom_out (s : State) (i : BoomId) (b : Boom) :
    (s.setBoom i b).out = { s.out with booms := s.out.booms.set i b } := rfl
@[simp] theorem setBoom_faults (s : State) (i : BoomId) (b : Boom) : (s.setBoom i b).faults = s.faults := rfl
@[simp] theorem setBoom_ports (s : State) (i : BoomId) (b : Boom) : (s.setBoom i b).ports = s.ports := rfl
@[simp] theorem setBoom_store (s : State) (i : BoomId) (b : Boom) : (s.setBoom i b).store = s.store := rfl
@[simp] theorem setBoom_mon (s : State) (i : BoomId) (b : Boom) : (s.setBoom i b).mon = s.mon := rfl
@[simp] theorem setBoom_pending (s : State) (i : BoomId) (b : Boom) : (s.setBoom i b).pending = s.pending := rfl

/-! ## setLamp -/

@[simp] theorem setLamp_uptime (s : State) (c : Channel) (l : Lamp) : (s.setLamp c l).uptime = s.uptime := rfl
@[simp] theorem setLamp_heads (s : State) (c : Channel) (l : Lamp) : (s.setLamp c l).heads = s.heads := rfl
@[simp] theorem setLamp_sections (s : State) (c : Channel) (l : Lamp) : (s.setLamp c l).sections = s.sections := rfl
@[simp] theorem setLamp_tracker (s : State) (c : Channel) (l : Lamp) : (s.setLamp c l).tracker = s.tracker := rfl
@[simp] theorem setLamp_approach (s : State) (c : Channel) (l : Lamp) : (s.setLamp c l).approach = s.approach := rfl
@[simp] theorem setLamp_stances (s : State) (c : Channel) (l : Lamp) : (s.setLamp c l).stances = s.stances := rfl
@[simp] theorem setLamp_seq (s : State) (c : Channel) (l : Lamp) : (s.setLamp c l).seq = s.seq := rfl
@[simp] theorem setLamp_out (s : State) (c : Channel) (l : Lamp) :
    (s.setLamp c l).out = { s.out with lamps := s.out.lamps.set c l } := rfl
@[simp] theorem setLamp_faults (s : State) (c : Channel) (l : Lamp) : (s.setLamp c l).faults = s.faults := rfl
@[simp] theorem setLamp_ports (s : State) (c : Channel) (l : Lamp) : (s.setLamp c l).ports = s.ports := rfl
@[simp] theorem setLamp_store (s : State) (c : Channel) (l : Lamp) : (s.setLamp c l).store = s.store := rfl
@[simp] theorem setLamp_mon (s : State) (c : Channel) (l : Lamp) : (s.setLamp c l).mon = s.mon := rfl
@[simp] theorem setLamp_pending (s : State) (c : Channel) (l : Lamp) : (s.setLamp c l).pending = s.pending := rfl

/-! ## setLane -/

@[simp] theorem setLane_uptime (s : State) (l : Lane) (x : LaneStance) : (s.setLane l x).uptime = s.uptime := rfl
@[simp] theorem setLane_heads (s : State) (l : Lane) (x : LaneStance) : (s.setLane l x).heads = s.heads := rfl
@[simp] theorem setLane_sections (s : State) (l : Lane) (x : LaneStance) :
    (s.setLane l x).sections = s.sections := rfl
@[simp] theorem setLane_tracker (s : State) (l : Lane) (x : LaneStance) : (s.setLane l x).tracker = s.tracker := rfl
@[simp] theorem setLane_approach (s : State) (l : Lane) (x : LaneStance) :
    (s.setLane l x).approach = s.approach := rfl
@[simp] theorem setLane_stances (s : State) (l : Lane) (x : LaneStance) :
    (s.setLane l x).stances = s.stances.setLane l x := rfl
@[simp] theorem setLane_seq (s : State) (l : Lane) (x : LaneStance) : (s.setLane l x).seq = s.seq := rfl
@[simp] theorem setLane_out (s : State) (l : Lane) (x : LaneStance) : (s.setLane l x).out = s.out := rfl
@[simp] theorem setLane_faults (s : State) (l : Lane) (x : LaneStance) : (s.setLane l x).faults = s.faults := rfl
@[simp] theorem setLane_ports (s : State) (l : Lane) (x : LaneStance) : (s.setLane l x).ports = s.ports := rfl
@[simp] theorem setLane_store (s : State) (l : Lane) (x : LaneStance) : (s.setLane l x).store = s.store := rfl
@[simp] theorem setLane_mon (s : State) (l : Lane) (x : LaneStance) : (s.setLane l x).mon = s.mon := rfl
@[simp] theorem setLane_pending (s : State) (l : Lane) (x : LaneStance) : (s.setLane l x).pending = s.pending := rfl

/-! ## setPort -/

@[simp] theorem setPort_uptime (s : State) (p : Port) (r : PortRecord) : (s.setPort p r).uptime = s.uptime := rfl
@[simp] theorem setPort_heads (s : State) (p : Port) (r : PortRecord) : (s.setPort p r).heads = s.heads := rfl
@[simp] theorem setPort_sections (s : State) (p : Port) (r : PortRecord) :
    (s.setPort p r).sections = s.sections := rfl
@[simp] theorem setPort_tracker (s : State) (p : Port) (r : PortRecord) : (s.setPort p r).tracker = s.tracker := rfl
@[simp] theorem setPort_approach (s : State) (p : Port) (r : PortRecord) :
    (s.setPort p r).approach = s.approach := rfl
@[simp] theorem setPort_stances (s : State) (p : Port) (r : PortRecord) : (s.setPort p r).stances = s.stances := rfl
@[simp] theorem setPort_seq (s : State) (p : Port) (r : PortRecord) : (s.setPort p r).seq = s.seq := rfl
@[simp] theorem setPort_out (s : State) (p : Port) (r : PortRecord) : (s.setPort p r).out = s.out := rfl
@[simp] theorem setPort_faults (s : State) (p : Port) (r : PortRecord) : (s.setPort p r).faults = s.faults := rfl
@[simp] theorem setPort_ports (s : State) (p : Port) (r : PortRecord) : (s.setPort p r).ports = s.ports.set p r := rfl
@[simp] theorem setPort_store (s : State) (p : Port) (r : PortRecord) : (s.setPort p r).store = s.store := rfl
@[simp] theorem setPort_mon (s : State) (p : Port) (r : PortRecord) : (s.setPort p r).mon = s.mon := rfl
@[simp] theorem setPort_pending (s : State) (p : Port) (r : PortRecord) : (s.setPort p r).pending = s.pending := rfl

/-! ## shiftOut -/

@[simp] theorem shiftOut_uptime (s : State) (p : Port) (l : List Octet) : (s.shiftOut p l).uptime = s.uptime := rfl
@[simp] theorem shiftOut_heads (s : State) (p : Port) (l : List Octet) : (s.shiftOut p l).heads = s.heads := rfl
@[simp] theorem shiftOut_sections (s : State) (p : Port) (l : List Octet) :
    (s.shiftOut p l).sections = s.sections := rfl
@[simp] theorem shiftOut_tracker (s : State) (p : Port) (l : List Octet) : (s.shiftOut p l).tracker = s.tracker := rfl
@[simp] theorem shiftOut_approach (s : State) (p : Port) (l : List Octet) :
    (s.shiftOut p l).approach = s.approach := rfl
@[simp] theorem shiftOut_stances (s : State) (p : Port) (l : List Octet) : (s.shiftOut p l).stances = s.stances := rfl
@[simp] theorem shiftOut_seq (s : State) (p : Port) (l : List Octet) : (s.shiftOut p l).seq = s.seq := rfl
@[simp] theorem shiftOut_out (s : State) (p : Port) (l : List Octet) : (s.shiftOut p l).out = s.out := rfl
@[simp] theorem shiftOut_faults (s : State) (p : Port) (l : List Octet) : (s.shiftOut p l).faults = s.faults := rfl
@[simp] theorem shiftOut_ports (s : State) (p : Port) (l : List Octet) :
    (s.shiftOut p l).ports = s.ports.set p { s.port p with shifted := l } := rfl
@[simp] theorem shiftOut_store (s : State) (p : Port) (l : List Octet) : (s.shiftOut p l).store = s.store := rfl
@[simp] theorem shiftOut_mon (s : State) (p : Port) (l : List Octet) : (s.shiftOut p l).mon = s.mon := rfl
@[simp] theorem shiftOut_pending (s : State) (p : Port) (l : List Octet) : (s.shiftOut p l).pending = s.pending := rfl

/-! ## putReply -/

@[simp] theorem putReply_uptime (s : State) (p : Port) (l : List Octet) : (s.putReply p l).uptime = s.uptime := rfl
@[simp] theorem putReply_heads (s : State) (p : Port) (l : List Octet) : (s.putReply p l).heads = s.heads := rfl
@[simp] theorem putReply_sections (s : State) (p : Port) (l : List Octet) :
    (s.putReply p l).sections = s.sections := rfl
@[simp] theorem putReply_tracker (s : State) (p : Port) (l : List Octet) : (s.putReply p l).tracker = s.tracker := rfl
@[simp] theorem putReply_approach (s : State) (p : Port) (l : List Octet) :
    (s.putReply p l).approach = s.approach := rfl
@[simp] theorem putReply_stances (s : State) (p : Port) (l : List Octet) : (s.putReply p l).stances = s.stances := rfl
@[simp] theorem putReply_seq (s : State) (p : Port) (l : List Octet) : (s.putReply p l).seq = s.seq := rfl
@[simp] theorem putReply_out (s : State) (p : Port) (l : List Octet) : (s.putReply p l).out = s.out := rfl
@[simp] theorem putReply_faults (s : State) (p : Port) (l : List Octet) : (s.putReply p l).faults = s.faults := rfl
@[simp] theorem putReply_ports (s : State) (p : Port) (l : List Octet) :
    (s.putReply p l).ports = s.ports.set p { s.port p with reply := some l } := rfl
@[simp] theorem putReply_store (s : State) (p : Port) (l : List Octet) : (s.putReply p l).store = s.store := rfl
@[simp] theorem putReply_mon (s : State) (p : Port) (l : List Octet) : (s.putReply p l).mon = s.mon := rfl
@[simp] theorem putReply_pending (s : State) (p : Port) (l : List Octet) : (s.putReply p l).pending = s.pending := rfl

/-! ## closeWindow -/

@[simp] theorem closeWindow_uptime (s : State) : s.closeWindow.uptime = s.uptime := rfl
@[simp] theorem closeWindow_heads (s : State) : s.closeWindow.heads = s.heads := rfl
@[simp] theorem closeWindow_sections (s : State) : s.closeWindow.sections = s.sections := rfl
@[simp] theorem closeWindow_tracker (s : State) : s.closeWindow.tracker = s.tracker := rfl
@[simp] theorem closeWindow_approach (s : State) : s.closeWindow.approach = s.approach := rfl
@[simp] theorem closeWindow_stances (s : State) : s.closeWindow.stances = s.stances := rfl
@[simp] theorem closeWindow_seq (s : State) : s.closeWindow.seq = s.seq := rfl
@[simp] theorem closeWindow_out (s : State) : s.closeWindow.out = s.out := rfl
@[simp] theorem closeWindow_faults (s : State) : s.closeWindow.faults = s.faults := rfl
@[simp] theorem closeWindow_ports (s : State) : s.closeWindow.ports = { s.ports with window := none } := rfl
@[simp] theorem closeWindow_store (s : State) : s.closeWindow.store = s.store := rfl
@[simp] theorem closeWindow_mon (s : State) : s.closeWindow.mon = s.mon := rfl
@[simp] theorem closeWindow_pending (s : State) : s.closeWindow.pending = s.pending := rfl

/-! ## setPermit -/

@[simp] theorem setPermit_uptime (s : State) (g : Bool) : (s.setPermit g).uptime = s.uptime := rfl
@[simp] theorem setPermit_heads (s : State) (g : Bool) : (s.setPermit g).heads = s.heads := rfl
@[simp] theorem setPermit_sections (s : State) (g : Bool) : (s.setPermit g).sections = s.sections := rfl
@[simp] theorem setPermit_tracker (s : State) (g : Bool) : (s.setPermit g).tracker = s.tracker := rfl
@[simp] theorem setPermit_approach (s : State) (g : Bool) : (s.setPermit g).approach = s.approach := rfl
@[simp] theorem setPermit_stances (s : State) (g : Bool) :
    (s.setPermit g).stances = { s.stances with permit := g } := rfl
@[simp] theorem setPermit_seq (s : State) (g : Bool) : (s.setPermit g).seq = s.seq := rfl
@[simp] theorem setPermit_out (s : State) (g : Bool) : (s.setPermit g).out = s.out := rfl
@[simp] theorem setPermit_faults (s : State) (g : Bool) : (s.setPermit g).faults = s.faults := rfl
@[simp] theorem setPermit_ports (s : State) (g : Bool) : (s.setPermit g).ports = s.ports := rfl
@[simp] theorem setPermit_store (s : State) (g : Bool) : (s.setPermit g).store = s.store := rfl
@[simp] theorem setPermit_mon (s : State) (g : Bool) : (s.setPermit g).mon = s.mon := rfl
@[simp] theorem setPermit_pending (s : State) (g : Bool) : (s.setPermit g).pending = s.pending := rfl

/-! ## giveConsent -/

@[simp] theorem giveConsent_uptime (s : State) (l : Lane) (n : Half) : (s.giveConsent l n).uptime = s.uptime := rfl
@[simp] theorem giveConsent_heads (s : State) (l : Lane) (n : Half) : (s.giveConsent l n).heads = s.heads := rfl
@[simp] theorem giveConsent_sections (s : State) (l : Lane) (n : Half) :
    (s.giveConsent l n).sections = s.sections := rfl
@[simp] theorem giveConsent_tracker (s : State) (l : Lane) (n : Half) : (s.giveConsent l n).tracker = s.tracker := rfl
@[simp] theorem giveConsent_approach (s : State) (l : Lane) (n : Half) :
    (s.giveConsent l n).approach = s.approach := rfl
@[simp] theorem giveConsent_stances (s : State) (l : Lane) (n : Half) :
    (s.giveConsent l n).stances = s.stances.setLane l { s.lane l with consent := some ⟨n, s.now⟩ } := rfl
@[simp] theorem giveConsent_seq (s : State) (l : Lane) (n : Half) : (s.giveConsent l n).seq = s.seq := rfl
@[simp] theorem giveConsent_out (s : State) (l : Lane) (n : Half) : (s.giveConsent l n).out = s.out := rfl
@[simp] theorem giveConsent_faults (s : State) (l : Lane) (n : Half) : (s.giveConsent l n).faults = s.faults := rfl
@[simp] theorem giveConsent_ports (s : State) (l : Lane) (n : Half) : (s.giveConsent l n).ports = s.ports := rfl
@[simp] theorem giveConsent_store (s : State) (l : Lane) (n : Half) : (s.giveConsent l n).store = s.store := rfl
@[simp] theorem giveConsent_mon (s : State) (l : Lane) (n : Half) : (s.giveConsent l n).mon = s.mon := rfl
@[simp] theorem giveConsent_pending (s : State) (l : Lane) (n : Half) : (s.giveConsent l n).pending = s.pending := rfl

end Sys2Proof.Machine.State
end

