-- ==== Sys2Proof/Laws/Faults.lean ====
section
/-!
SUPPORT. What the fault and notice unit can do. `FaultUnit.Reach u v` says that `v` comes from `u` by the unit's own
operations, one after another; each operation of a block on the fault table is such a run, and changes nothing else of the
state (`OnlyFaults`). The queue's bound is kept by every such run.
-/
namespace Sys2Proof.Machine

/-! ## The unit's operations -/

/-- `v` comes from `u` by raises, CLEARED records given up, clears, re-grades, notices, statuses, acknowledgements, a poll, new
masks, the record of a restart, and the keeping of records across a restart. -/
inductive FaultUnit.Reach : FaultUnit → FaultUnit → Prop where
  | refl (u : FaultUnit) : Reach u u
  | raise {u v : FaultUnit} (h : Reach u v) (t : BitVec 32) (k : FaultKind) (x : Subject) (sev : Severity) :
      Reach u (v.raise t k x sev)
  | giveUp {u v : FaultUnit} (h : Reach u v) (k : FaultKind) (x : Subject) : Reach u (v.giveUp k x)
  | clear {u v : FaultUnit} (h : Reach u v) (t : BitVec 32) (k : FaultKind) (x : Subject) : Reach u (v.clear t k x)
  | regrade {u v : FaultUnit} (h : Reach u v) (t : BitVec 32) (k : FaultKind) (x : Subject) (sev : Severity) :
      Reach u (v.regrade t k x sev)
  | notice {u v : FaultUnit} (h : Reach u v) (n : Notice) (hn : n.isStatus = false) : Reach u (v.append n)
  | status {u v : FaultUnit} (h : Reach u v) (st : StatusNotice) : Reach u (v.queueStatus st)
  | restart {u v : FaultUnit} (h : Reach u v) (t : BitVec 32) (d : ResetKind) : Reach u (v.partRestarted t d)
  | masks {u v : FaultUnit} (h : Reach u v) (m : ClassSet) : Reach u { v with masks := m }
  | acknowledge {u v w : FaultUnit} (h : Reach u v) (n : Nat) (st : Option FaultState)
      (hw : v.acknowledge n = some (w, st)) : Reach u w
  | poll {u v : FaultUnit} (h : Reach u v) (b : Nat) : Reach u (State.polled v (takeNotices b v.queue).2)

namespace FaultUnit

theorem Reach.trans {u v w : FaultUnit} (h : Reach u v) (h' : Reach v w) : Reach u w := by
  induction h' with
  | refl => exact h
  | raise _ t k x sev ih => exact ih.raise t k x sev
  | giveUp _ k x ih => exact ih.giveUp k x
  | clear _ t k x ih => exact ih.clear t k x
  | regrade _ t k x sev ih => exact ih.regrade t k x sev
  | notice _ n hn ih => exact ih.notice n hn
  | status _ st ih => exact ih.status st
  | restart _ t d ih => exact ih.restart t d
  | masks _ m ih => exact ih.masks m
  | acknowledge _ n st hw ih => exact ih.acknowledge n st hw
  | poll _ b ih => exact ih.poll b

/-! ## The queue's bound (R162) -/

/-- The bound of the queue, of a unit. -/
def QueueOk (u : FaultUnit) : Prop := u.queue.length ≤ queueCapacity ∧ u.queue.countP Notice.isStatus ≤ 1

theorem append_ok (u : FaultUnit) (n : Notice) (h : u.QueueOk)
    (hn : n.isStatus = true → u.queue.countP Notice.isStatus = 0) : (u.append n).QueueOk := by
  obtain ⟨hl, hc⟩ := h
  have hcount : ∀ l : List Notice, l.countP Notice.isStatus ≤ u.queue.countP Notice.isStatus →
      (l ++ [n]).countP Notice.isStatus ≤ 1 := by
    intro l hl'
    rw [List.countP_append]
    rcases hb : n.isStatus with _ | _
    · have : [n].countP Notice.isStatus = 0 := by simp [hb]
      omega
    · have h0 := hn hb
      have : [n].countP Notice.isStatus = 1 := by simp [hb]
      omega
  unfold append
  split
  · next hlt => exact ⟨by simpa using Nat.succ_le_of_lt hlt, hcount _ (Nat.le_refl _)⟩
  · split
    · next hany =>
      refine ⟨?_, hcount _ ((List.eraseP_sublist).countP_le)⟩
      have : (u.queue.eraseP Notice.isPassed).length = u.queue.length - 1 := by
        rw [List.length_eraseP]; simp [hany]
      have hpos : 0 < u.queue.length := by
        cases hq : u.queue with
        | nil => simp [hq] at hany
        | cons a l => simp
      simp only [List.length_append, List.length_singleton, this]; omega
    · exact ⟨hl, hc⟩

theorem combine_length (st : StatusNotice) (l : List Notice) : (combineStatus st l).length = l.length := by
  induction l with
  | nil => rfl
  | cons n l ih => cases n <;> simp [combineStatus, ih]

theorem combine_count (st : StatusNotice) (l : List Notice) :
    (combineStatus st l).countP Notice.isStatus = l.countP Notice.isStatus := by
  induction l with
  | nil => rfl
  | cons n l ih => cases n <;> simp [combineStatus, ih, List.countP_cons, Notice.isStatus]

theorem queueStatus_ok (u : FaultUnit) (st : StatusNotice) (h : u.QueueOk) : (u.queueStatus st).QueueOk := by
  unfold queueStatus
  split
  · exact ⟨by simpa [combine_length] using h.1, by simpa [combine_count] using h.2⟩
  · next hany =>
    refine append_ok u _ h fun _ => ?_
    simpa [List.countP_eq_zero] using hany

theorem takeNotices_split (b : Nat) (l : List Notice) : (takeNotices b l).1 ++ (takeNotices b l).2 = l := by
  induction l generalizing b with
  | nil => simp [takeNotices]
  | cons n l ih =>
    simp only [takeNotices]
    split
    · simp [ih]
    · simp

/-- The notices a POLL takes are no larger together than its budget (R166). -/
theorem takeNotices_within (b : Nat) (l : List Notice) : ((takeNotices b l).1.map Notice.size).sum ≤ b := by
  induction l generalizing b with
  | nil => simp [takeNotices]
  | cons n l ih =>
    simp only [takeNotices]
    split
    · next h => have := ih (b - n.size); simp only [List.map_cons, List.sum_cons]; omega
    · simp

theorem announce_ok (u : FaultUnit) (r : FaultRecord) (t : BitVec 32) (h : u.QueueOk) : (u.announce r t).QueueOk := by
  unfold announce; split
  · exact h
  · exact append_ok u _ h (by simp [Notice.isStatus])

theorem announceCleared_ok (u : FaultUnit) (r : FaultRecord) (t : BitVec 32) (h : u.QueueOk) :
    (u.announceCleared r t).QueueOk := by
  unfold announceCleared; split
  · exact h
  · exact append_ok u _ h (by simp [Notice.isStatus])

theorem placeAt_ok (u : FaultUnit) (p : Fin 31) (t : BitVec 32) (k : FaultKind) (x : Subject) (sev : Severity)
    (st : FaultState) (d : Option ResetKind) (h : u.QueueOk) : (u.placeAt p t k x sev st d).QueueOk := by
  unfold placeAt; exact announce_ok _ _ _ h

theorem countOverflow_ok (u : FaultUnit) (t : BitVec 32) (h : u.QueueOk) : (u.countOverflow t).QueueOk := by
  unfold countOverflow stick; dsimp only
  split <;> exact append_ok _ _ h (by simp [Notice.isStatus])

theorem create_ok (u : FaultUnit) (t : BitVec 32) (k : FaultKind) (x : Subject) (sev : Severity) (st : FaultState)
    (d : Option ResetKind) (h : u.QueueOk) : (u.create t k x sev st d).QueueOk := by
  unfold create; split
  · exact placeAt_ok _ _ _ _ _ _ _ _ h
  · split
    · exact placeAt_ok _ _ _ _ _ _ _ _ h
    · exact countOverflow_ok _ _ h

theorem regrade_ok (u : FaultUnit) (t : BitVec 32) (k : FaultKind) (x : Subject) (sev : Severity) (h : u.QueueOk) :
    (u.regrade t k x sev).QueueOk := by
  unfold regrade; split
  · exact h
  · split
    · exact h
    · dsimp only; split <;> exact announce_ok _ _ _ h

theorem repeatRaise_ok (u : FaultUnit) (p : Fin 31) (r : FaultRecord) (t : BitVec 32) (sev : Severity) (h : u.QueueOk) :
    (u.repeatRaise p r t sev).QueueOk := by
  unfold repeatRaise; dsimp only; split
  · exact announce_ok _ _ _ h
  · exact regrade_ok _ _ _ _ _ h

theorem raise_ok (u : FaultUnit) (t : BitVec 32) (k : FaultKind) (x : Subject) (sev : Severity) (h : u.QueueOk) :
    (u.raise t k x sev).QueueOk := by
  unfold raise; dsimp only; split
  · exact repeatRaise_ok _ _ _ _ _ h
  · exact create_ok _ _ _ _ _ _ _ h

/-- A CLEARED record that is given up leaves the table and the cleared order (R154, log 42). -/
theorem giveUp_cleared (u : FaultUnit) (k : FaultKind) (x : Subject) (p : Fin 31) (r : FaultRecord)
    (h : u.find k x = some (p, r)) (c : r.state = FaultState.cleared) :
    u.giveUp k x = { u.erase p with clearedOrder := u.clearedOrder.filter (· ≠ p) } := by
  simp only [giveUp, h, c, if_true]

/-- A record given up leaves everything of the unit but the table and the cleared order. -/
theorem giveUp_rest (u : FaultUnit) (k : FaultKind) (x : Subject) :
    u.giveUp k x = { u with table := (u.giveUp k x).table, clearedOrder := (u.giveUp k x).clearedOrder } := by
  unfold giveUp
  split
  · split <;> rfl
  · rfl

theorem giveUp_ok (u : FaultUnit) (k : FaultKind) (x : Subject) (h : u.QueueOk) : (u.giveUp k x).QueueOk := by
  rw [giveUp_rest]; exact h

theorem clearOverflow_ok (u : FaultUnit) (t : BitVec 32) (h : u.QueueOk) : (u.clearOverflow t).QueueOk := by
  unfold clearOverflow; split
  · exact h
  · split
    · exact announceCleared_ok _ _ _ h
    · exact announceCleared_ok _ _ _ h
    · exact h

theorem clear_ok (u : FaultUnit) (t : BitVec 32) (k : FaultKind) (x : Subject) (h : u.QueueOk) :
    (u.clear t k x).QueueOk := by
  unfold clear; split
  · exact h
  · split
    · exact clearOverflow_ok _ _ (announceCleared_ok _ _ _ h)
    · exact clearOverflow_ok _ _ (announceCleared_ok _ _ _ h)
    · exact h

theorem partRestarted_ok (u : FaultUnit) (t : BitVec 32) (d : ResetKind) (h : u.QueueOk) :
    (u.partRestarted t d).QueueOk := by
  unfold partRestarted; dsimp only; split
  · exact create_ok _ _ _ _ _ _ _ h
  · exact announce_ok _ _ _ h

theorem acknowledge_queue {u w : FaultUnit} {n : Nat} {st : Option FaultState} (h : u.acknowledge n = some (w, st)) :
    w.queue = u.queue ∧ w.masks = u.masks ∧ w.sticky = u.sticky ∧ w.overflowCount = u.overflowCount ∧
    w.idCounter = u.idCounter := by
  unfold acknowledge at h
  split at h
  · split at h <;> (cases h; exact ⟨rfl, rfl, rfl, rfl, rfl⟩)
  · split at h
    · split at h
      · cases h; exact ⟨rfl, rfl, rfl, rfl, rfl⟩
      · cases h
    · cases h

theorem Reach.queueOk {u v : FaultUnit} (h : Reach u v) (hu : u.QueueOk) : v.QueueOk := by
  induction h with
  | refl => exact hu
  | raise _ t k x sev ih => exact raise_ok _ _ _ _ _ ih
  | giveUp _ k x ih => exact giveUp_ok _ _ _ ih
  | clear _ t k x ih => exact clear_ok _ _ _ _ ih
  | regrade _ t k x sev ih => exact regrade_ok _ _ _ _ _ ih
  | notice _ n hn ih => exact append_ok _ _ ih (by simp [hn])
  | status _ st ih => exact queueStatus_ok _ _ ih
  | restart _ t d ih => exact partRestarted_ok _ _ _ ih
  | masks _ m ih => exact ih
  | acknowledge _ n st hw ih =>
    have := (acknowledge_queue hw).1
    exact ⟨by rw [this]; exact ih.1, by rw [this]; exact ih.2⟩
  | @poll v _ b ih =>
    have hs := takeNotices_split b v.queue
    have h1 : ((takeNotices b v.queue).2).length ≤ v.queue.length := by
      have := congrArg List.length hs
      rw [List.length_append] at this; omega
    have h2 : ((takeNotices b v.queue).2).countP Notice.isStatus ≤ v.queue.countP Notice.isStatus := by
      have := congrArg (List.countP Notice.isStatus) hs
      rw [List.countP_append] at this; omega
    exact ⟨Nat.le_trans h1 ih.1, Nat.le_trans h2 ih.2⟩

end FaultUnit

/-! ## The blocks' requests to the unit -/

/-- Only the fault and notice unit has changed, by its own operations. -/
def OnlyFaults (s t : State) : Prop := ∃ u, s.faults.Reach u ∧ t = { s with faults := u }

theorem OnlyFaults.refl (s : State) : OnlyFaults s s := ⟨_, .refl _, rfl⟩

theorem OnlyFaults.trans {s t r : State} (h : OnlyFaults s t) (h' : OnlyFaults t r) : OnlyFaults s r := by
  obtain ⟨u, hu, rfl⟩ := h
  obtain ⟨v, hv, rfl⟩ := h'
  exact ⟨v, hu.trans hv, rfl⟩

/-- A run over a list of operations, each of a kind, is of that kind. -/
theorem foldl_run {α : Type} {R : State → State → Prop} (hr : ∀ s, R s s) (ht : ∀ {a b c}, R a b → R b c → R a c)
    (f : State → α → State) (h : ∀ s a, R s (f s a)) (l : List α) (s : State) : R s (l.foldl f s) := by
  induction l generalizing s with
  | nil => exact hr s
  | cons a l ih => exact ht (h s a) (ih (f s a))

namespace State

theorem raiseAt_only (s : State) (k : FaultKind) (x : Subject) (sev : Severity) : OnlyFaults s (s.raiseAt k x sev) := by
  unfold raiseAt; split
  · exact .refl s
  · exact ⟨_, (FaultUnit.Reach.refl _).raise _ _ _ _, rfl⟩

theorem raise_only (s : State) (k : FaultKind) (x : Subject) : OnlyFaults s (s.raise k x) := raiseAt_only s k x _

theorem clear_only (s : State) (k : FaultKind) (x : Subject) : OnlyFaults s (s.clear k x) := by
  unfold clear; split
  · exact .refl s
  · exact ⟨_, (FaultUnit.Reach.refl _).clear _ _ _, rfl⟩

theorem regrade_only (s : State) (k : FaultKind) (x : Subject) (sev : Severity) : OnlyFaults s (s.regrade k x sev) := by
  unfold regrade; split
  · exact .refl s
  · exact ⟨_, (FaultUnit.Reach.refl _).regrade _ _ _ _, rfl⟩

theorem notice_only (s : State) (n : Notice) (hn : n.isStatus = false) : OnlyFaults s (s.notice n) := by
  unfold notice; split
  · exact .refl s
  · exact ⟨_, (FaultUnit.Reach.refl _).notice n hn, rfl⟩

theorem clearMovementFaults_only (s : State) (n : Nat) : OnlyFaults s (s.clearMovementFaults n) :=
  (clear_only s _ _).trans (clear_only _ _ _)

theorem clearFullFaults_only (s : State) (x : SectionId) : OnlyFaults s (s.clearFullFaults x) :=
  (clear_only s _ _).trans (clear_only _ _ _)

theorem clearDisagree_only (s : State) : OnlyFaults s s.clearDisagree := (clear_only s _ _).trans (clear_only _ _ _)

theorem clearBoomFaults_only (s : State) (i : BoomId) : OnlyFaults s (s.clearBoomFaults i) :=
  ((clear_only s _ _).trans (clear_only _ _ _)).trans (clear_only _ _ _)

/-- One of two operations of a kind is of that kind. -/
theorem ite_run {R : State → State → Prop} {s a b : State} {c : Prop} [Decidable c] (ha : R s a) (hb : R s b) :
    R s (if c then a else b) := by
  split
  · exact ha
  · exact hb

theorem raiseSections_only (s : State) : OnlyFaults s s.raiseSections :=
  foldl_run OnlyFaults.refl OnlyFaults.trans _ (fun s _ => ite_run (raise_only s _ _) (.refl s)) _ s

theorem raiseOutputs_only (s : State) : OnlyFaults s s.raiseOutputs := by
  unfold raiseOutputs
  extract_lets s1 s2
  have h1 : OnlyFaults s s1 := foldl_run OnlyFaults.refl OnlyFaults.trans _ (fun s i =>
    foldl_run OnlyFaults.refl OnlyFaults.trans _ (fun s k => ite_run (raise_only s _ _) (.refl s)) _ s) _ s
  have h2 : OnlyFaults s1 s2 := foldl_run OnlyFaults.refl OnlyFaults.trans _ (fun s c => by
    extract_lets a
    have : OnlyFaults s a := ite_run (raiseAt_only s _ _ _) (.refl s)
    exact this.trans (ite_run (raise_only _ _ _) (.refl _))) _ s1
  exact (h1.trans h2).trans (ite_run (raise_only _ _ _) (.refl _))

theorem raiseSupply_only (s : State) : OnlyFaults s s.raiseSupply := by
  unfold raiseSupply
  extract_lets a
  have : OnlyFaults s a := ite_run (raise_only s _ _) (.refl s)
  exact this.trans (ite_run (raise_only _ _ _) (.refl _))

theorem clearOutputs_only (s : State) : OnlyFaults s s.clearOutputs := by
  unfold clearOutputs
  extract_lets s1 s2
  have h1 : OnlyFaults s s1 := foldl_run OnlyFaults.refl OnlyFaults.trans _ (fun s i =>
    foldl_run OnlyFaults.refl OnlyFaults.trans _ (fun s k => ite_run (.refl s) (clear_only s _ _)) _ s) _ s
  have h2 : OnlyFaults s1 s2 := foldl_run OnlyFaults.refl OnlyFaults.trans _ (fun s c => by
    extract_lets a
    have : OnlyFaults s a := ite_run (.refl s) (clear_only s _ _)
    exact this.trans (ite_run (.refl _) (clear_only _ _ _))) _ s1
  exact (h1.trans h2).trans (ite_run (.refl _) (clear_only _ _ _))

theorem clearSupply_only (s : State) : OnlyFaults s s.clearSupply := by
  unfold clearSupply
  extract_lets a
  have : OnlyFaults s a := ite_run (.refl s) (clear_only s _ _)
  exact this.trans (ite_run (clear_only _ _ _) (.refl _))

theorem clearLostMovements_only (s : State) : OnlyFaults s s.clearLostMovements :=
  foldl_run OnlyFaults.refl OnlyFaults.trans _ (fun s p => by
    split
    · exact ite_run (clear_only s _ _) (.refl s)
    · exact .refl s) _ s

theorem clearSections_only (s : State) : OnlyFaults s s.clearSections :=
  foldl_run OnlyFaults.refl OnlyFaults.trans _ (fun s _ =>
    ite_run (.refl s) ((clear_only s _ _).trans (clearFullFaults_only _ _))) _ s

theorem clearLanes_only (s : State) : OnlyFaults s s.clearLanes :=
  ((clear_only s _ _).trans (clear_only _ _ _)).trans (clearDisagree_only _)

theorem recordRestart_only (s : State) : OnlyFaults s s.recordRestart :=
  ⟨_, (FaultUnit.Reach.refl _).restart _ _, rfl⟩

theorem startFaults_only (s : State) : OnlyFaults s s.startFaults := by
  unfold startFaults
  extract_lets s1 s2
  have h1 : OnlyFaults s s1 :=
    (((raiseSections_only s).trans (raiseOutputs_only _)).trans (raiseSupply_only _)).trans (recordRestart_only _)
  have h2 : OnlyFaults s1 s2 := ite_run (raise_only _ _ _) (clear_only _ _ _)
  exact h1.trans (h2.trans ((((clearOutputs_only _).trans (clearSupply_only _)).trans
    (clearLostMovements_only _)).trans ((clearSections_only _).trans ((clearLanes_only _).trans (clear_only _ _ _)))))

end State

end Sys2Proof.Machine
end

