-- ==== Sys2Proof/Laws/Moves.lean ====
section
/-!
SUPPORT. What the operations on movements, sections and heads can do. `OnlyMoves`: the slots and the fault unit alone;
`OnlyTrack`: the sections, the movement table, the lanes' reset agreements and the fault unit alone; `OnlyField`: these and
the heads.
-/
namespace Sys2Proof.Machine

/-- Only the movement slots have changed, and the fault and notice unit by its own operations. -/
def OnlyMoves (s t : State) : Prop :=
  ∃ u v, s.faults.Reach u ∧ t = { s with faults := u, tracker := { s.tracker with slots := v } }

/-- The stances with other reset agreements. -/
def Stances.withAgreements (v : Stances) (a b : Option Agreement) : Stances :=
  { v with laneA := { v.laneA with agreement := a }, laneB := { v.laneB with agreement := b } }

/-- Only the sections, the movement slots and their number counter, and the lanes' reset agreements have changed, and the
fault and notice unit by its own operations. -/
def OnlyTrack (s t : State) : Prop :=
  ∃ u x v n a b, s.faults.Reach u ∧
    t = { s with
      faults := u
      sections := x
      tracker := { s.tracker with slots := v, counter := n }
      stances := s.stances.withAgreements a b }

/-- As `OnlyTrack`, with the heads. -/
def OnlyField (s t : State) : Prop := ∃ h r, OnlyTrack { s with heads := h } r ∧ t = r

theorem OnlyMoves.refl (s : State) : OnlyMoves s s := ⟨_, _, .refl _, rfl⟩

theorem OnlyMoves.trans {s t r : State} (h : OnlyMoves s t) (h' : OnlyMoves t r) : OnlyMoves s r := by
  obtain ⟨u, v, hu, rfl⟩ := h
  obtain ⟨u', v', hu', rfl⟩ := h'
  exact ⟨u', v', hu.trans hu', rfl⟩

theorem OnlyFaults.moves {s t : State} (h : OnlyFaults s t) : OnlyMoves s t := by
  obtain ⟨u, hu, rfl⟩ := h
  exact ⟨u, _, hu, rfl⟩

theorem OnlyTrack.refl (s : State) : OnlyTrack s s := ⟨_, _, _, _, _, _, .refl _, rfl⟩

theorem OnlyTrack.trans {s t r : State} (h : OnlyTrack s t) (h' : OnlyTrack t r) : OnlyTrack s r := by
  obtain ⟨u, x, v, n, a, b, hu, rfl⟩ := h
  obtain ⟨u', x', v', n', a', b', hu', rfl⟩ := h'
  exact ⟨u', x', v', n', a', b', hu.trans hu', rfl⟩

theorem OnlyMoves.track {s t : State} (h : OnlyMoves s t) : OnlyTrack s t := by
  obtain ⟨u, v, hu, rfl⟩ := h
  exact ⟨u, s.sections, v, s.tracker.counter, s.stances.laneA.agreement, s.stances.laneB.agreement, hu, rfl⟩

theorem OnlyFaults.track {s t : State} (h : OnlyFaults s t) : OnlyTrack s t := h.moves.track

theorem OnlyField.refl (s : State) : OnlyField s s := ⟨s.heads, s, OnlyTrack.refl s, rfl⟩

theorem OnlyTrack.field {s t : State} (h : OnlyTrack s t) : OnlyField s t := ⟨s.heads, t, h, rfl⟩

theorem OnlyField.trans {s t r : State} (h : OnlyField s t) (h' : OnlyField t r) : OnlyField s r := by
  obtain ⟨x, _, ⟨u, y, v, n, a, b, hu, rfl⟩, rfl⟩ := h
  obtain ⟨x', _, ⟨u', y', v', n', a', b', hu', rfl⟩, rfl⟩ := h'
  exact ⟨x', _, ⟨u', y', v', n', a', b', hu.trans hu', rfl⟩, rfl⟩

/-- The model's own mark is no part of a movement's record (R40, R58). -/
@[simp] theorem Movement.record_long (m : Movement) (b : Bool) : ({ m with longRaised := b } : Movement).record = m.record := rfl

namespace State

/-! ## Movements -/

@[simp] theorem slot_setSlot (s : State) (k : SlotId) (m : Option Movement) : (s.setSlot k m).slot k = m :=
  Vector.getElem_set_self ..

theorem slot_setSlot_of_ne (s : State) {j k : SlotId} (m : Option Movement) (h : j ≠ k) :
    (s.setSlot k m).slot j = s.slot j :=
  Vector.getElem_set_ne k.isLt j.isLt fun e => h (Fin.ext e.symm)

/-- The axles of a slot are those of its movement. -/
theorem axlesOf_of_slot {s : State} {k : SlotId} {m : Movement} (x : SectionId) (h : s.slot k = some m) :
    s.axlesOf x k = axlesIn m x := by simp [axlesOf, h]

theorem axlesOf_of_free {s : State} {k : SlotId} (x : SectionId) (h : s.slot k = none) : s.axlesOf x k = 0 := by
  simp [axlesOf, h]

/-- The movement records differ exactly where some slot's record does (R58). -/
theorem movementsDiffer_iff (s pre : State) : s.movementsDiffer pre = true ↔
    ∃ k, (s.slot k).map Movement.record ≠ (pre.slot k).map Movement.record := by
  simp [movementsDiffer]

/-- The mark of LONG-APPROACH changes no record (R58, R72). -/
theorem recordsChanged_long {s : State} {k : SlotId} {m : Movement} (b : Bool) (h : s.slot k = some m) :
    (s.setSlot k (some { m with longRaised := b })).recordsChanged s = false := by
  have same : (s.setSlot k (some { m with longRaised := b })).movementsDiffer s = false := by
    rw [Bool.eq_false_iff, ne_eq, movementsDiffer_iff]
    rintro ⟨j, hj⟩
    by_cases e : j = k
    · subst e; simp [h] at hj
    · exact hj (by rw [slot_setSlot_of_ne _ _ e])
  simp [recordsChanged, same]

theorem setSlot_moves (s : State) (k : SlotId) (m : Option Movement) : OnlyMoves s (s.setSlot k m) :=
  ⟨_, s.tracker.slots.set k m, .refl _, rfl⟩

theorem warnFrom_moves (s : State) (t : Time) : OnlyMoves s (s.warnFrom t) := ⟨_, _, .refl _, rfl⟩

theorem retire_moves (s : State) (k : SlotId) (b : Bool) : OnlyMoves s (s.retire k b) := by
  unfold retire
  split
  · exact .refl s
  · extract_lets s1 s2
    have h1 : OnlyMoves s s1 := (clearMovementFaults_only s _).moves
    have h2 : OnlyMoves s1 s2 := ite_run (notice_only _ _ rfl).moves (.refl _)
    exact (h1.trans h2).trans (setSlot_moves _ _ _)

theorem discardMovements_moves (s : State) : OnlyMoves s s.discardMovements :=
  foldl_run OnlyMoves.refl OnlyMoves.trans _ (fun s _ => retire_moves s _ _) _ s

theorem stripMovement_moves (s : State) (x : SectionId) (k : SlotId) : OnlyMoves s (s.stripMovement x k) := by
  unfold stripMovement
  split
  · exact .refl s
  · exact ite_run (retire_moves _ _ _) (setSlot_moves _ _ _)

theorem raiseLong_moves (s : State) (k : SlotId) (m : Movement) : OnlyMoves s (s.raiseLong k m) :=
  ite_run ((setSlot_moves _ _ _).trans (raise_only _ _ _).moves) (.refl s)

theorem enterMovement_moves (s : State) (k : SlotId) (m : Movement) (b : Option MoveState) (st : MoveState) (t : Time) :
    OnlyMoves s (s.enterMovement k m b st t) := by
  unfold enterMovement
  extract_lets m' s1 s2
  have h1 : OnlyMoves s s1 := setSlot_moves _ _ _
  have h2 : OnlyMoves s1 s2 := ite_run (clear_only _ _ _).moves (.refl _)
  exact (h1.trans h2).trans (ite_run (raise_only _ _ _).moves (.refl _))

theorem recompute_moves (s : State) (k : SlotId) (c : Change) : OnlyMoves s (s.recompute k c) := by
  unfold recompute
  split
  · exact .refl s
  · exact ite_run (enterMovement_moves _ _ _ _ _ _) (ite_run (raiseLong_moves _ _ _) (.refl s))

/-- A write of the fault unit alone leaves every slot. -/
theorem slot_of_onlyFaults {s t : State} (h : OnlyFaults s t) (k : SlotId) : t.slot k = s.slot k := by
  obtain ⟨_, _, rfl⟩ := h; rfl

/-- A movement that enters a state takes the fields of the entry, and no other slot changes (R65). -/
theorem slot_enterMovement (s : State) (k : SlotId) (m : Movement) (b : Option MoveState) (st : MoveState) (t : Time) :
    (s.enterMovement k m b st t).slot k = some (s.enterMoveState m b st t) ∧
    ∀ j, j ≠ k → (s.enterMovement k m b st t).slot j = s.slot j := by
  have h : OnlyFaults (s.setSlot k (some (s.enterMoveState m b st t))) (s.enterMovement k m b st t) := by
    unfold enterMovement
    exact (ite_run (R := OnlyFaults) (clear_only _ _ _) (.refl _)).trans (ite_run (raise_only _ _ _) (.refl _))
  exact ⟨by rw [slot_of_onlyFaults h, slot_setSlot], fun j e => by rw [slot_of_onlyFaults h, slot_setSlot_of_ne _ _ e]⟩

/-- An entry into a state sets it, and sets no field but the timing fields and the model's mark (R65, R70). -/
theorem enterMoveState_fields (s : State) (m : Movement) (b : Option MoveState) (st : MoveState) (t : Time) :
    let n := s.enterMoveState m b st t
    n.state = st ∧ n.record = { m.record with
      state := st, dueTime := n.dueTime, dueSince := n.dueSince, warnedAt := n.warnedAt } := by
  cases st <;> exact ⟨rfl, rfl⟩

/-- A recompute touches the slot it is made for and no other (R57). -/
theorem slot_recompute_of_ne (s : State) {j k : SlotId} (c : Change) (h : j ≠ k) :
    (s.recompute k c).slot j = s.slot j := by
  have kept : ∀ m, (s.raiseLong k m).slot j = s.slot j := fun m => by
    unfold raiseLong
    split
    · rw [slot_of_onlyFaults (raise_only _ _ _),
        slot_setSlot_of_ne _ _ h]
    · rfl
  unfold recompute
  split
  · rfl
  · extract_lets st
    split
    · exact (slot_enterMovement ..).2 j h
    · split
      · exact kept _
      · rfl

theorem retime_moves (s : State) (k : SlotId) (h : HeadId) (v : Option Nat) (t : Time) :
    OnlyMoves s (s.retime k h v t) := by
  unfold retime
  split
  · split
    · exact ite_run (ite_run (enterMovement_moves _ _ _ _ _ _) (setSlot_moves _ _ _)) (.refl s)
    · exact .refl s
  · exact .refl s

theorem recomputeStripped_moves (s : State) (l : List SlotId) (t : Time) : OnlyMoves s (s.recomputeStripped l t) :=
  foldl_run OnlyMoves.refl OnlyMoves.trans _ (fun s _ => recompute_moves s _ _) _ s

theorem recomputeAll_moves (s : State) : OnlyMoves s s.recomputeAll :=
  foldl_run OnlyMoves.refl OnlyMoves.trans _ (fun s _ => by
    split
    · exact ite_run (.refl s) (recompute_moves s _ _)
    · exact .refl s) _ s

theorem takeAdvance_moves (s : State) (p : Passage) (k : SlotId) : OnlyMoves s (s.takeAdvance p k) := by
  unfold takeAdvance
  split
  · exact .refl s
  · exact (setSlot_moves _ _ _).trans (recompute_moves _ _ _)

theorem touch_moves (s : State) (k : SlotId) (t : Time) : OnlyMoves s (s.touch k t) := by
  unfold touch
  split
  · exact .refl s
  · exact setSlot_moves _ _ _

theorem retireEmpty_moves (s : State) (k : SlotId) (b : Bool) : OnlyMoves s (s.retireEmpty k b) := by
  unfold retireEmpty
  split
  · exact .refl s
  · exact ite_run (retire_moves _ _ _) (.refl s)

/-! ## Sections -/

theorem setSection_track (s : State) (x : SectionId) (r : Section) : OnlyTrack s (s.setSection x r) :=
  ⟨_, s.sections.set x r, s.tracker.slots, s.tracker.counter, s.stances.laneA.agreement, s.stances.laneB.agreement,
    .refl _, rfl⟩

theorem create_track (s : State) (k : SlotId) (m : Movement) : OnlyTrack s (s.create k m) :=
  ⟨_, s.sections, s.tracker.slots.set k (some m), counterAfter m.number, s.stances.laneA.agreement,
    s.stances.laneB.agreement, ((FaultUnit.Reach.refl _).giveUp _ _).giveUp _ _, rfl⟩

theorem sectionLeft_track (s : State) (x : SectionId) : OnlyTrack s (s.sectionLeft x) :=
  ⟨_, s.sections, s.tracker.slots, s.tracker.counter, _, _, .refl _, rfl⟩

theorem disturb_track (s : State) (x : SectionId) (c : DisturbCause) : OnlyTrack s (s.disturb x c) := by
  unfold disturb
  extract_lets s1
  have h1 : OnlyMoves s s1 := foldl_run OnlyMoves.refl OnlyMoves.trans _ (fun s k => stripMovement_moves s x k) _ s
  exact (h1.track.trans (setSection_track _ _ _)).trans (raise_only _ _ _).track

theorem disturbFull_track (s : State) (x : SectionId) (c : DisturbCause) (k : FaultKind) :
    OnlyTrack s (s.disturbFull x c k) := (disturb_track _ _ _).trans (raise_only _ _ _).track

theorem restore_track (s : State) (x : SectionId) (k : RestoreKind) : OnlyTrack s (s.restore x k) := by
  unfold restore
  split
  · exact .refl s
  · extract_lets s1
    have h1 : OnlyTrack s s1 := (setSection_track _ _ _).trans (sectionLeft_track _ _)
    exact h1.trans (((notice_only _ _ rfl).track.trans (clear_only _ _ _).track).trans (clearFullFaults_only _ _).track)

theorem beginSweep_track (s : State) (x : SectionId) : OnlyTrack s (s.beginSweep x) :=
  (setSection_track _ _ _).trans (sectionLeft_track _ _)

/-! ## The passage -/

theorem axleOut_track (s : State) (x : SectionId) (e : Side) (k : SlotId) (m : Movement) :
    OnlyTrack s (s.axleOut x e k m) := by
  unfold axleOut
  extract_lets m' r r' s1
  have h1 : OnlyTrack s s1 := (setSlot_moves _ _ _).track.trans (setSection_track _ _ _)
  exact h1.trans (ite_run (restore_track _ _ _) (.refl _))

theorem leavingStep_track (s : State) (p : Passage) : OnlyTrack s (s.leavingStep p).s := by
  unfold leavingStep
  split
  · exact .refl s
  · extract_lets r e
    split
    · exact .refl s
    · split
      · exact disturb_track _ _ _
      · split
        · exact disturb_track _ _ _
        · exact axleOut_track _ _ _ _ _

theorem axleIn_track (s : State) (x : SectionId) (e : Side) (k : SlotId) : OnlyTrack s (s.axleIn x e k) := by
  unfold axleIn
  extract_lets r r'
  exact setSection_track _ _ _

theorem giveAxle_track (s : State) (x : SectionId) (e : Side) (k : SlotId) (t : Time) :
    OnlyTrack s (s.giveAxle x e k t) := by
  unfold giveAxle
  split
  · exact .refl s
  · exact (setSlot_moves _ _ _).track.trans (axleIn_track _ _ _ _)

theorem replaceInLists_track (s : State) (l : List SpanEntry) (a b : SlotId) : OnlyTrack s (s.replaceInLists l a b) :=
  foldl_run OnlyTrack.refl OnlyTrack.trans _ (fun s _ => setSection_track s _ _) _ s

theorem split_track (s : State) (p : Passage) (k n : SlotId) (m : Movement) : OnlyTrack s (s.split p k n m) := by
  unfold State.split
  extract_lets a b
  exact ((create_track _ _ _).trans (setSlot_moves _ _ _).track).trans (replaceInLists_track _ _ _ _)

theorem enterCarried_track (s : State) (p : Passage) (k : SlotId) (f : Bool) : OnlyTrack s (s.enterCarried p k f).s := by
  unfold enterCarried
  extract_lets s1
  have h1 : OnlyTrack s s1 := (touch_moves _ _ _).track
  split
  · exact h1
  · extract_lets r
    split
    · exact h1
    · split
      · exact h1.trans (disturb_track _ _ _)
      · split
        · exact h1.trans (disturbFull_track _ _ _ _)
        · exact h1.trans (giveAxle_track _ _ _ _ _)

theorem startMovement_track (s : State) (p : Passage) (o : Origin) (x : SectionId) (t : TrackId) :
    OnlyTrack s (s.startMovement p o x t).s := by
  unfold startMovement
  extract_lets r
  split
  · exact disturbFull_track _ _ _ _
  · split
    · exact disturbFull_track _ _ _ _
    · exact (create_track _ _ _).trans (giveAxle_track _ _ _ _ _)

theorem enterUncarried_track (s : State) (p : Passage) (o : Origin) : OnlyTrack s (s.enterUncarried p o).s := by
  unfold enterUncarried
  split
  · exact .refl s
  · extract_lets r
    split
    · exact .refl s
    · split
      · exact .refl s
      · split
        · exact disturb_track _ _ _
        · split
          · exact startMovement_track _ _ _ _ _
          · split
            · exact startMovement_track _ _ _ _ _
            · split
              · extract_lets s1
                have h1 : OnlyTrack s s1 := (setSlot_moves _ _ _).track
                exact h1.trans (giveAxle_track _ _ _ _ _)
              · exact startMovement_track _ _ _ _ _

theorem enterReversed_track (s : State) (p : Passage) (k : SlotId) (m : Movement) :
    OnlyTrack s (s.enterReversed p k m).s := by
  unfold enterReversed
  split
  · exact (setSlot_moves _ _ _).track.trans (enterCarried_track _ _ _ _)
  · extract_lets r
    split
    · exact (setSlot_moves _ _ _).track.trans (enterCarried_track _ _ _ _)
    · split
      · exact (split_track _ _ _ _ _).trans (enterCarried_track _ _ _ _)
      · exact (touch_moves _ _ _).track.trans (disturbFull_track _ _ _ _)

theorem enteringStep_track (l : Left) (p : Passage) : OnlyTrack l.s (enteringStep l p).s := by
  unfold enteringStep
  split
  · exact enterUncarried_track _ _ _
  · split
    · exact enterUncarried_track _ _ _
    · split
      · exact enterCarried_track _ _ _ _
      · exact enterReversed_track _ _ _ _

theorem boundaryPassage_track (s : State) (p : Passage) : OnlyTrack s (s.boundaryPassage p) := by
  unfold boundaryPassage
  extract_lets l e s1
  have h1 : OnlyTrack s e.s := (leavingStep_track s p).trans (enteringStep_track l p)
  have h2 : OnlyTrack s s1 := by
    show OnlyTrack s (match l.carrier with | some k => _ | none => _)
    split
    · exact h1.trans (retireEmpty_moves _ _ _).track
    · exact h1
  exact h2.trans (foldl_run OnlyTrack.refl OnlyTrack.trans _ (fun s k => by
    split
    · exact (recompute_moves _ _ _).track
    · exact .refl s) _ _)

theorem advancePassage_moves (s : State) (p : Passage) : OnlyMoves s (s.advancePassage p) := by
  unfold advancePassage
  split
  · exact .refl s
  · extract_lets r
    split
    · exact .refl s
    · split
      · exact takeAdvance_moves _ _ _
      · split
        · exact (takeAdvance_moves _ _ _).trans (retime_moves _ _ _ _ _)
        · exact .refl s

theorem passage_track (s : State) (p : Passage) : OnlyTrack s (s.passage p) :=
  ite_run (boundaryPassage_track s p) (advancePassage_moves s p).track

/-! ## Heads -/

theorem setHead_field (s : State) (h : HeadId) (r : Head) : OnlyField s (s.setHead h r) :=
  ⟨s.heads.set h r, _, OnlyTrack.refl _, rfl⟩

theorem reportFailure_track (s : State) (h : HeadId) : OnlyTrack s (s.reportFailure h) := by
  unfold reportFailure
  extract_lets xs l
  exact (foldl_run OnlyTrack.refl OnlyTrack.trans _ (fun s x => disturb_track s x _) _ s).trans
    (recomputeStripped_moves _ _ _).track

theorem failHead_field (s : State) (h : HeadId) (k : HeadFailure) : OnlyField s (s.failHead h k) := by
  unfold failHead
  extract_lets _ s1
  have h1 : OnlyField s s1 := setHead_field _ _ _
  exact h1.trans ((reportFailure_track _ _).trans (raise_only _ _ _).track).field

theorem takeOutcome_field (s : State) (h : HeadId) (o : WheelOutcome) (t : Time) : OnlyField s (s.takeOutcome h o t) := by
  unfold takeOutcome
  split
  · exact .refl s
  · exact .refl s
  · exact (passage_track _ _).field
  · exact ite_run (failHead_field _ _ _) (.refl s)

theorem sensorEffect_field {h : HeadId} {x : Side} {level : Level} {held : Nat} {s t : State}
    (ht : s.sensorEffect h x level held = some t) : OnlyField s t := by
  unfold sensorEffect at ht
  extract_lets r at ht
  split at ht
  · cases ht
  · split at ht
    · cases ht
    · extract_lets rise at ht
      split at ht
      · cases ht
      · cases ht
        exact (setHead_field _ _ _).trans (takeOutcome_field _ _ _ _)

theorem stuckEffect_field {h : HeadId} {x : Side} {s t : State} (ht : s.stuckEffect h x = some t) : OnlyField s t := by
  unfold stuckEffect at ht
  split at ht
  · extract_lets r _ s1 at ht
    have h1 : OnlyField s s1 := setHead_field _ _ _
    split at ht
    · cases ht; exact h1.trans (failHead_field _ _ _)
    · cases ht; exact (h1.trans (setHead_field _ _ _)).trans (raise_only _ _ _).track.field
  · cases ht

theorem recoveryEffect_field {h : HeadId} {s t : State} (ht : s.recoveryEffect h = some t) : OnlyField s t := by
  unfold recoveryEffect at ht
  split at ht
  · extract_lets _ s1 at ht
    have h1 : OnlyField s s1 := setHead_field _ _ _
    cases ht
    exact (h1.trans (clear_only _ _ _).track.field).trans (clear_only _ _ _).track.field
  · cases ht

/-! ## The approach timer's own events -/

theorem dueEffect_moves {k : SlotId} {s t : State} (ht : s.dueEffect k = some t) : OnlyMoves s t := by
  unfold dueEffect at ht
  split at ht
  · cases ht
  · split at ht
    · split at ht
      · cases ht; exact enterMovement_moves _ _ _ _ _ _
      · cases ht
    · cases ht

theorem blockerEffect_refl {k : SlotId} {s t : State} (ht : s.blockerEffect k = some t) : t = s := by
  unfold blockerEffect at ht
  split at ht
  · cases ht
  · split at ht
    · cases ht; rfl
    · cases ht

theorem longEffect_moves {k : SlotId} {s t : State} (ht : s.longEffect k = some t) : OnlyMoves s t := by
  unfold longEffect at ht
  split at ht
  · cases ht
  · split at ht
    · cases ht; exact raiseLong_moves _ _ _
    · cases ht

end State

end Sys2Proof.Machine
end

