-- ==== Sys2Proof/Laws/Safety.lean ====
section
/-!
SUPPORT. What the terms of Safety mean for the operations: what stands on a track (R39, R77), the record that a kind and subject
have (R153), the id that is drawn (R152), and the notices that a unit is told (R160).
-/
namespace Sys2Proof.Machine

/-! ## What stands on a track -/

theorem anySection_iff (p : SectionId → Bool) : anySection p = true ↔ ∃ x, p x = true := by simp [anySection]

namespace State

theorem anyLive_iff (s : State) (p : Movement → Bool) : s.anyLive p = true ↔ ∃ k m, s.slot k = some m ∧ p m = true := by
  simp only [anyLive, List.any_eq_true, List.mem_finRange, true_and]
  refine exists_congr fun k => ?_
  cases s.slot k <;> simp

theorem onTrack_iff (s : State) (n : TrackId) (x : SectionId) : s.onTrack n x = true ↔ OnTrack s n x := by
  unfold onTrack OnTrack
  cases (s.sect x).place <;> simp

theorem isProtecting_iff (s : State) (x : SectionId) : s.isProtecting x = true ↔ Protects s x := by
  unfold isProtecting role Protects
  cases (s.sect x).place with
  | none => simp
  | some p => rcases p with ⟨t, r⟩; cases r <;> simp

theorem withheld_iff (s : State) (x : SectionId) : s.withheld x = true ↔ Withheld s x := by
  unfold withheld Withheld
  simp [isProtecting_iff]

end State

/-! ## The fault table -/

namespace FaultUnit

/-- The record found for a kind and subject stands at its position (R153). -/
theorem find_spec {u : FaultUnit} {k : FaultKind} {x : Subject} {p : Fin 31} {r : FaultRecord}
    (h : u.find k x = some (p, r)) : u.table[p] = some r ∧ r.kind = k ∧ r.subject = x := by
  obtain ⟨q, _, hq⟩ := List.exists_of_findSome?_eq_some h
  revert hq
  cases e : u.table[q] with
  | none => simp
  | some v =>
    simp only
    split
    · rename_i hc
      intro hv
      obtain ⟨rfl, rfl⟩ := Prod.mk.inj (Option.some.inj hv)
      exact ⟨e, hc⟩
    · simp

/-- The record found for a kind and subject, written over with one of the same kind and subject, is found again (R153). -/
theorem find_write {u : FaultUnit} {k : FaultKind} {x : Subject} {p : Fin 31} {r r' : FaultRecord}
    (h : u.find k x = some (p, r)) (hk : r'.kind = k) (hx : r'.subject = x) : (u.write p r').find k x = some (p, r') := by
  have other : ∀ q : Fin 31, q ≠ p → (u.table.set p (some r'))[q] = u.table[q] := fun q hq =>
    Vector.getElem_set_ne _ _ fun e => hq (Fin.ext e.symm)
  have here : (u.table.set p (some r'))[p] = some r' := by simp
  unfold find write at *
  rw [List.findSome?_eq_some_iff] at h ⊢
  obtain ⟨front, a, back, hl, ha, hb⟩ := h
  have hap : a = p := by
    revert ha
    cases u.table[a] with
    | none => simp
    | some v => simp only; split <;> simp +contextual
  subst hap
  refine ⟨front, a, back, hl, ?_, fun b hbm => ?_⟩
  · simp only; rw [here]; simp [hk, hx]
  · have hba : b ≠ a := fun e => by
      have hn : (List.finRange 31).Nodup := List.nodup_finRange 31
      rw [hl] at hn
      exact (List.nodup_append.1 hn).2.2 b hbm a (by simp) e
    simp only; rw [other b hba]; exact hb b hbm

/-- A FAULT-RAISED is queued as `worded` gives it (R160). -/
theorem announce_told (u : FaultUnit) (r : FaultRecord) (t : BitVec 32) :
    u.announce r t = u.told (u.worded r.kind.cls r.severity (.faultRaised r.id r.kind r.subject r.severity t)) := by
  unfold announce worded masked told
  cases r.severity <;> simp <;> split <;> simp_all

/-- A FAULT-CLEARED is queued as `worded` gives it (R160). -/
theorem announceCleared_told (u : FaultUnit) (r : FaultRecord) (t : BitVec 32) :
    u.announceCleared r t = u.told (u.worded r.kind.cls r.severity (.faultCleared r.id t)) := by
  unfold announceCleared worded masked told
  cases r.severity <;> simp <;> split <;> simp_all

theorem told_append (u : FaultUnit) (a b : List Notice) : u.told (a ++ b) = (u.told a).told b := by
  simp [told, List.foldl_append]

/-- Notices change the queue and the overflow count alone (R165). -/
theorem told_rest (u : FaultUnit) (l : List Notice) :
    u.told l = { u with queue := (u.told l).queue, overflowCount := (u.told l).overflowCount } := by
  have one : ∀ (u : FaultUnit) (n : Notice),
      u.append n = { u with queue := (u.append n).queue, overflowCount := (u.append n).overflowCount } := fun u n => by
    unfold append; (repeat' split) <;> rfl
  induction l generalizing u with
  | nil => rfl
  | cons a l ih => rw [show u.told (a :: l) = (u.append a).told l from rfl, ih, one u a]

@[simp] theorem changed_nil (u : FaultUnit) (t : BitVec 32) : u.changed t [] = u := rfl

@[simp] theorem changed_raised (u : FaultUnit) (t : BitVec 32) (k : FaultKind) (x : Subject) (l : List FaultChange) :
    u.changed t (.raised k x :: l) = (u.raise t k x k.severity).changed t l := rfl

@[simp] theorem changed_cleared (u : FaultUnit) (t : BitVec 32) (k : FaultKind) (x : Subject) (l : List FaultChange) :
    u.changed t (.cleared k x :: l) = (u.clear t k x).changed t l := rfl

theorem changed_append (u : FaultUnit) (t : BitVec 32) (l m : List FaultChange) :
    u.changed t (l ++ m) = (u.changed t l).changed t m := List.foldl_append

end FaultUnit

/-- Distinct numbers that all stand in a list are no more than it. -/
theorem length_le_of_nodup {l m : List Nat} (h : l.Nodup) (hs : ∀ x ∈ l, x ∈ m) : l.length ≤ m.length := by
  induction l generalizing m with
  | nil => simp
  | cons a l ih =>
    have ha := hs a (by simp)
    have hl := ih (List.nodup_cons.1 h).2 (m := m.erase a) fun x hx =>
      (List.mem_erase_of_ne fun e : x = a => (List.nodup_cons.1 h).1 (e ▸ hx)).2 (hs x (by simp [hx]))
    rw [List.length_erase_of_mem ha] at hl
    have : m.length ≠ 0 := fun h0 => by rw [List.length_eq_zero_iff] at h0; subst h0; simp at ha
    simp only [List.length_cons]; omega

/-- The id a unit draws is one that no record holds: of 255 numbers its 32 records hold some (R152). -/
theorem nextFree_drawn (u : FaultUnit) : Drawn u (nextFree u.idCounter u.idInUse) := by
  let turn := fun k => (u.idCounter + 254 + k) % 255 + 1
  unfold nextFree
  cases h : ((List.range 255).map turn).find? fun n => !u.idInUse n with
  | none =>
    exfalso
    rw [List.find?_eq_none] at h
    have hl : ((List.range 255).map turn).length ≤ (u.records.map FaultRecord.id).length := by
      refine length_le_of_nodup ?_ fun x hx => by simpa [FaultUnit.idInUse] using h x hx
      rw [List.nodup_iff_pairwise_ne, List.pairwise_map]
      refine List.Pairwise.imp_of_mem ?_ (List.nodup_iff_pairwise_ne.1 List.nodup_range)
      intro a b ha hb hab
      simp only [List.mem_range, turn] at ha hb ⊢
      omega
    have h1 := List.length_filterMap_le id u.table.toList
    have h2 : u.table.toList.length = 31 := by simp
    have h3 : u.overflow.toList.length ≤ 1 := by cases u.overflow <;> simp
    simp only [List.length_map, List.length_range, FaultUnit.records, List.length_append] at hl
    omega
  | some n =>
    obtain ⟨hn, front, back, hab, hbef⟩ := List.find?_eq_some_iff_append.1 h
    have hlen : front.length < 255 := by
      have := congrArg List.length hab
      simp only [List.length_map, List.length_range, List.length_append, List.length_cons] at this
      omega
    have at_ : ∀ i (hi : i < 255), (front ++ n :: back)[i]? = some (turn i) := fun i hi => by
      rw [← hab, List.getElem?_map, List.getElem?_range hi]; rfl
    have here : n = turn front.length := by
      have := at_ front.length hlen
      rw [List.getElem?_append_right (Nat.le_refl _), Nat.sub_self] at this
      exact Option.some.inj this
    refine ⟨?_, ?_, by simpa using hn, fun h1 _ => ⟨front.length, ?_, fun i hi => ?_⟩⟩
    · show 1 ≤ n; rw [here]; exact Nat.le_add_left 1 _
    · show n ≤ 255; rw [here]; exact Nat.succ_le_of_lt (Nat.mod_lt _ (by decide))
    · show n = _; rw [here]; simp only [turn]; omega
    · have e := at_ i (by omega)
      rw [List.getElem?_append_left hi, List.getElem?_eq_getElem hi] at e
      have hu := hbef front[i] (List.getElem_mem hi)
      rw [Option.some.inj e] at hu
      have same : (u.idCounter + i - 1) % 255 + 1 = turn i := by simp only [turn]; omega
      rw [same]; simpa using hu

end Sys2Proof.Machine
end

