-- ==== Sys2Proof/Laws/Commit.lean ====
section
/-!
SUPPORT. The fault unit after the parts of an accepted commit: `State.changeTopology_faults` for its movements and sections, then
`State.laneAndConfig_faults` for its lanes and the configuration, as Safety lists them.
-/
namespace Sys2Proof.Machine
namespace State

theorem flatMap_same {V W : Type} {f g : V → List W} {l : List V} (h : ∀ x ∈ l, f x = g x) : l.flatMap f = l.flatMap g := by
  induction l with
  | nil => rfl
  | cons a l ih =>
    rw [List.flatMap_cons, List.flatMap_cons, h a (List.mem_cons_self ..), ih fun x hx => h x (List.mem_cons_of_mem _ hx)]

theorem clear_unit {s : State} (h : s.mon.mode ≠ .starting) (k : FaultKind) (x : Subject) :
    s.clear k x = s.onFaults fun u => u.clear s.seconds k x := if_neg h

theorem raise_unit {s : State} (h : s.mon.mode ≠ .starting) (k : FaultKind) (x : Subject) :
    s.raise k x = s.onFaults fun u => u.raise s.seconds k x k.severity := if_neg h

/-- The retirement of a slot without a notice: the faults of its movement are cleared and the slot is free (R51, R80). -/
theorem retire_faults {s : State} (h : s.mon.mode ≠ .starting) (k : SlotId) :
    (s.retire k false).faults = s.faults.changed s.seconds (discardFaults s k) ∧
    (s.retire k false).mon = s.mon ∧ (s.retire k false).seconds = s.seconds ∧
    (s.retire k false).sections = s.sections ∧ ∀ j, j ≠ k → (s.retire k false).slot j = s.slot j := by
  unfold retire discardFaults
  cases s.slot k with
  | none => exact ⟨rfl, rfl, rfl, rfl, fun _ _ => rfl⟩
  | some m =>
    have hc : s.clearMovementFaults m.number = s.onFaults fun u =>
        (u.clear s.seconds .shortWarning (.movement m.number)).clear s.seconds .longApproach (.movement m.number) := by
      unfold clearMovementFaults
      rw [clear_unit h, clear_unit (s := s.onFaults _) h]
      all_goals rfl
    simp only [hc, Bool.false_eq_true, if_false]
    exact ⟨rfl, rfl, rfl, rfl, fun j hj => slot_setSlot_of_ne _ _ hj⟩

theorem retireAll_faults (l : List SlotId) (hl : l.Nodup) (s : State) (h : s.mon.mode ≠ .starting) :
    (l.foldl (fun s k => s.retire k false) s).faults = s.faults.changed s.seconds (l.flatMap (discardFaults s)) ∧
    (l.foldl (fun s k => s.retire k false) s).mon = s.mon ∧ (l.foldl (fun s k => s.retire k false) s).seconds = s.seconds ∧
    (l.foldl (fun s k => s.retire k false) s).sections = s.sections := by
  induction l generalizing s with
  | nil => exact ⟨rfl, rfl, rfl, rfl⟩
  | cons k l ih =>
    obtain ⟨hk, hl⟩ := List.nodup_cons.mp hl
    obtain ⟨r1, r2, r3, r4, r5⟩ := retire_faults h k
    obtain ⟨i1, i2, i3, i4⟩ := ih hl (s.retire k false) (by rw [r2]; exact h)
    rw [List.foldl_cons, List.flatMap_cons, FaultUnit.changed_append]
    refine ⟨?_, i2.trans r2, i3.trans r3, i4.trans r4⟩
    rw [i1, r1, r3]
    congr 1
    refine flatMap_same fun j hj => ?_
    unfold discardFaults
    rw [r5 j fun e => hk (e ▸ hj)]

/-- What a change of the topology makes of one section: a used one raises SECTION-DISTURBED, the faults of another are cleared
(R38, R49). -/
theorem disturbOne_faults {s : State} (h : s.mon.mode ≠ .starting) (x : SectionId) (he : (s.sect x).list = []) :
    let t := if (s.sect x).place.isSome then s.disturb x .config
      else (s.clear .sectionDisturbed (.sect x)).clearFullFaults x
    t.faults = s.faults.changed s.seconds (disturbFaults x (s.sect x).place.isSome) ∧
    t.mon = s.mon ∧ t.seconds = s.seconds ∧ ∀ y, y ≠ x → t.sect y = s.sect y := by
  unfold disturbFaults
  split
  · unfold disturb
    rw [he]
    simp only [List.foldl_nil]
    rw [raise_unit (s := s.setSection x _) h]
    refine ⟨rfl, rfl, rfl, fun y hy => ?_⟩
    show (s.sections.set x.val _)[y.val] = _
    exact Vector.getElem_set_ne _ _ fun e => hy (Fin.ext e.symm)
  · unfold clearFullFaults
    rw [clear_unit h, clear_unit (s := s.onFaults _) h, clear_unit (s := (s.onFaults _).onFaults _) h]
    exact ⟨rfl, rfl, rfl, fun _ _ => rfl⟩

theorem disturbAll_faults (l : List SectionId) (hl : l.Nodup) (s : State) (h : s.mon.mode ≠ .starting)
    (he : ∀ x ∈ l, (s.sect x).list = []) :
    let f := fun (s : State) (x : SectionId) => if (s.sect x).place.isSome then s.disturb x .config
      else (s.clear .sectionDisturbed (.sect x)).clearFullFaults x
    (l.foldl f s).faults = s.faults.changed s.seconds (l.flatMap fun x =>
      disturbFaults x (s.sect x).place.isSome) ∧
    (l.foldl f s).mon = s.mon ∧ (l.foldl f s).seconds = s.seconds := by
  intro f
  induction l generalizing s with
  | nil => exact ⟨rfl, rfl, rfl⟩
  | cons x l ih =>
    obtain ⟨hx, hl⟩ := List.nodup_cons.mp hl
    obtain ⟨r1, r2, r3, r4⟩ := disturbOne_faults h x (he x (List.mem_cons_self ..))
    have other : ∀ y ∈ l, (f s x).sect y = s.sect y := fun y hy => r4 y fun e => hx (e ▸ hy)
    obtain ⟨i1, i2, i3⟩ := ih hl (f s x) (by rw [show (f s x).mon = s.mon from r2]; exact h)
      fun y hy => by rw [other y hy]; exact he y (List.mem_cons_of_mem _ hy)
    rw [List.foldl_cons, List.flatMap_cons, FaultUnit.changed_append]
    refine ⟨?_, i2.trans r2, i3.trans r3⟩
    rw [i1, show (f s x).faults = _ from r1, show (f s x).seconds = _ from r3]
    congr 1
    refine flatMap_same fun y hy => ?_
    rw [other y hy]

theorem place_isSome (e : SectionEntry) : e.place.isSome = (e.used != 0) := by
  unfold SectionEntry.place SectionEntry.isUsed
  cases e.used != 0 <;> rfl

/-- The sections of a new copy, before they are disturbed: each has the place of its entry, and no list. -/
theorem sect_replaceSections (s : State) (new : ConfigImage) (x : SectionId) :
    ((s.replaceSections new).sect x).place = new.sections[x].place ∧ ((s.replaceSections new).sect x).list = [] := by
  have e : (s.replaceSections new).sect x = match new.sections[x].place with
      | none => Section.unused
      | some p => { s.sect x with place := some p, list := [] } := by
    show (Vector.ofFn _)[x.val] = _
    rw [Vector.getElem_ofFn]
    all_goals rfl
  rw [e]
  cases new.sections[x].place <;> exact ⟨rfl, rfl⟩

theorem replaceAll_faults (s : State) (h : s.mon.mode ≠ .starting) (new : ConfigImage) :
    ((s.replaceSections new).disturbAll).faults = s.faults.changed s.seconds ((List.finRange 10).flatMap fun x =>
      disturbFaults x (new.sections[x].used != 0)) ∧
    ((s.replaceSections new).disturbAll).mon = s.mon ∧ ((s.replaceSections new).disturbAll).seconds = s.seconds := by
  obtain ⟨i1, i2, i3⟩ := disturbAll_faults (List.finRange 10) (List.nodup_finRange 10) (s.replaceSections new) h
    fun x _ => (sect_replaceSections s new x).2
  refine ⟨i1.trans (congrArg (FaultUnit.changed s.faults s.seconds) (flatMap_same fun x _ => ?_)), i2, i3⟩
  rw [(sect_replaceSections s new x).1, place_isSome]

/-- The fault unit after a change of the topology (R38, R49, R60, R80). -/
theorem changeTopology_faults {s : State} (h : s.mon.mode ≠ .starting) (old : Option ConfigImage) (new : ConfigImage) :
    (s.changeTopology old new).faults = s.faults.changed s.seconds (topologyFaults s new) ∧
    (s.changeTopology old new).mon = s.mon ∧ (s.changeTopology old new).seconds = s.seconds := by
  obtain ⟨r1, r2, r3, -⟩ := retireAll_faults (List.finRange 16) (List.nodup_finRange 16) s h
  unfold changeTopology discardMovements topologyFaults
  generalize (List.finRange 16).foldl (fun s k => s.retire k false) s = d at r1 r2 r3
  obtain ⟨i1, i2, i3⟩ := replaceAll_faults d (by rw [r2]; exact h) new
  rw [r1, r3] at i1
  generalize (d.replaceSections new).disturbAll = z at i1 i2 i3
  rw [FaultUnit.changed_append]
  exact ⟨i1, i2.trans r2, i3.trans r3⟩

/-- A lane under a new contact time: lost, with LANE-LOST raised, where its last contact is older (R86). -/
theorem applyContactTime_faults {s : State} (h : s.mon.mode ≠ .starting) (l : Lane) :
    let lost := s.cfg.takesPart l && (s.lane l).contact == .present &&
      (s.lane l).lastContact.any fun e => s.cfg.laneContactMs < since s.now e
    (s.applyContactTime l).faults = s.faults.changed s.seconds (if lost then [.raised .laneLost (.lane l)] else []) ∧
    (s.applyContactTime l).mon = s.mon ∧ (s.applyContactTime l).uptime = s.uptime ∧
    (s.applyContactTime l).store = s.store ∧ ∀ j, j ≠ l → (s.applyContactTime l).lane j = s.lane j := by
  have lose : ∀ {s : State}, s.mon.mode ≠ .starting → (s.loseLane l).faults = s.faults.changed s.seconds
      [.raised .laneLost (.lane l)] ∧ (s.loseLane l).mon = s.mon ∧ (s.loseLane l).uptime = s.uptime ∧
      (s.loseLane l).store = s.store ∧ ∀ j, j ≠ l → (s.loseLane l).lane j = s.lane j := by
    intro s h
    unfold loseLane
    rw [raise_unit (s := s.setLane l _) h]
    exact ⟨rfl, rfl, rfl, rfl, fun j hj => by cases j <;> cases l <;> first | rfl | exact absurd rfl hj⟩
  intro lost
  have e : s.applyContactTime l = if lost then s.loseLane l else s := by
    unfold applyContactTime
    dsimp only
    split
    · next t hc ht =>
      have : lost = (s.cfg.takesPart l && decide (since s.now t > s.cfg.laneContactMs)) := by
        simp only [lost, hc, ht, Option.any_some, beq_self_eq_true, Bool.and_true]
      rw [this]
    · next hn =>
      have : lost = false := by
        simp only [lost]
        cases ht : (s.lane l).lastContact with
        | none => simp
        | some t =>
          cases hc : (s.lane l).contact with
          | present => exact absurd ht (hn t hc)
          | notHeard => simp
          | lost => simp
      rw [this]; rfl
  rw [e]
  cases lost
  · exact ⟨rfl, rfl, rfl, rfl, fun _ _ => rfl⟩
  · exact lose h

/-- The fault unit after a change of arrangement, and the contacts a contact time looks at (R99). -/
theorem changeArrangement_faults {s : State} (h : s.mon.mode ≠ .starting) (was : Bool) :
    let t := s.changeArrangement was
    t.faults = s.faults.changed s.seconds (if was && !s.cfg.dual then
      [.cleared .laneLost (.lane .b), .cleared .laneDisagree (.lane .b)] else []) ∧
    t.mon = s.mon ∧ t.uptime = s.uptime ∧ t.store = s.store ∧
    (∀ l, l = .a ∨ was = s.cfg.dual →
      (t.lane l).contact = (s.lane l).contact ∧ (t.lane l).lastContact = (s.lane l).lastContact) ∧
    (was ≠ s.cfg.dual → (t.lane .b).contact = .notHeard) := by
  intro t
  by_cases hw : was = s.cfg.dual
  · have e : t = s := if_pos hw
    rw [e]
    refine ⟨?_, rfl, rfl, rfl, fun _ _ => ⟨rfl, rfl⟩, fun n => absurd hw n⟩
    rw [hw]; cases s.cfg.dual <;> rfl
  · have other : ∀ l, l = Lane.a ∨ was = s.cfg.dual → l = .a := fun l o => o.resolve_right hw
    cases hd : s.cfg.dual with
    | true =>
      have e : t = (s.onStances fun v => { v.dropConsents.dropAgreements with disagreement := none }).setLane .b
          { LaneStance.initial with supervisedFrom := some s.now } := by
        show s.changeArrangement was = _
        unfold changeArrangement
        rw [if_neg hw]
        exact if_pos hd
      rw [e]
      refine ⟨?_, rfl, rfl, rfl, fun l o => ?_, fun _ => rfl⟩
      · simp only [Bool.not_true, Bool.and_false, Bool.false_eq_true, if_false]
        rfl
      · rw [other l (hd ▸ o)]; exact ⟨rfl, rfl⟩
    | false =>
      have clears : ∀ u : State, u.mon.mode ≠ .starting → (u.clear .laneLost (.lane .b)).clear .laneDisagree (.lane .b) =
          u.onFaults fun v => (v.clear u.seconds .laneLost (.lane .b)).clear u.seconds .laneDisagree (.lane .b) := by
        intro u hu
        rw [clear_unit hu, clear_unit (s := onFaults _ _) hu]
        all_goals rfl
      have e : t = ((s.onStances fun v => { v.dropConsents.dropAgreements with disagreement := none }).setLane .b
          LaneStance.initial).onFaults fun v =>
            (v.clear s.seconds .laneLost (.lane .b)).clear s.seconds .laneDisagree (.lane .b) := by
        refine Eq.trans ?_ (clears _ h)
        show s.changeArrangement was = _
        unfold changeArrangement
        rw [if_neg hw]
        exact if_neg fun x => Bool.false_ne_true (hd.symm.trans x)
      have ht : was = true := by cases was with
        | true => rfl
        | false => exact absurd hd.symm hw
      rw [e, ht]
      refine ⟨rfl, rfl, rfl, rfl, fun l o => ?_, fun _ => rfl⟩
      rw [o.resolve_right nofun]; exact ⟨rfl, rfl⟩

/-- The fault unit after the lanes and the configuration of a commit: `r` is the machine before it (R86, R99, R187). -/
theorem laneAndConfig_faults {r s : State} (h : s.mon.mode ≠ .starting)
    (hl : ∀ l, (s.lane l).contact = (r.lane l).contact ∧ (s.lane l).lastContact = (r.lane l).lastContact) :
    ((s.changeLanes r.cfg).leaveUnconfigured.clear .configInvalid .configuration).faults =
      s.faults.changed s.seconds (laneAndConfigFaults r s.cfg s.now) := by
  have last : ∀ t : State, t.mon.mode ≠ .starting →
      (t.leaveUnconfigured.clear .configInvalid .configuration).faults =
        t.faults.changed t.seconds [.cleared .configInvalid .configuration] := by
    intro t ht
    have e : t.leaveUnconfigured.mon.mode ≠ .starting ∧ t.leaveUnconfigured.faults = t.faults ∧
        t.leaveUnconfigured.seconds = t.seconds := by
      unfold leaveUnconfigured
      split
      · exact ⟨nofun, rfl, rfl⟩
      · exact ⟨ht, rfl, rfl⟩
    rw [clear_unit e.1]
    show FaultUnit.clear _ _ _ _ = _
    rw [e.2.1, e.2.2]
    all_goals rfl
  obtain ⟨a1, a2, a3, a4, a5, a6⟩ := changeArrangement_faults h r.cfg.dual
  have lanes : (s.changeLanes r.cfg).faults = s.faults.changed s.seconds
      ((if r.cfg.dual && !s.cfg.dual then [.cleared .laneLost (.lane .b), .cleared .laneDisagree (.lane .b)] else []) ++
        ([Lane.a, .b].filter (lostToContactTime r s.cfg s.now)).map fun l => .raised .laneLost (.lane l)) ∧
      (s.changeLanes r.cfg).mon = s.mon ∧ (s.changeLanes r.cfg).uptime = s.uptime := by
    unfold changeLanes
    generalize s.changeArrangement r.cfg.dual = t at a1 a2 a3 a4 a5 a6
    have hc : t.cfg = s.cfg := by unfold State.cfg; rw [a4]
    have hn : t.now = s.now := by unfold State.now; rw [a3]
    have hs : t.seconds = s.seconds := by unfold State.seconds; rw [a3]
    dsimp only
    rw [hc, FaultUnit.changed_append, ← a1]
    by_cases e : s.cfg.laneContactMs = r.cfg.laneContactMs
    · have nl : ∀ l, lostToContactTime r s.cfg s.now l = false := by
        intro l; unfold lostToContactTime; rw [e]; simp
      rw [if_pos e]
      simp only [List.filter_cons, nl, List.filter_nil]
      exact ⟨rfl, a2, a3⟩
    · rw [if_neg e]
      obtain ⟨b1, b2, b3, b4, b5⟩ := applyContactTime_faults (s := t) (by rw [a2]; exact h) .a
      obtain ⟨c1, c2, c3, c4, -⟩ := applyContactTime_faults (s := t.applyContactTime .a) (by rw [b2, a2]; exact h) .b
      have hne : (r.cfg.laneContactMs != s.cfg.laneContactMs) = true := bne_iff_ne.mpr (Ne.symm e)
      have la : (t.cfg.takesPart .a && (t.lane .a).contact == .present &&
          (t.lane .a).lastContact.any fun x => t.cfg.laneContactMs < since t.now x) = lostToContactTime r s.cfg s.now .a := by
        rw [hc, hn, (a5 .a (.inl rfl)).1, (a5 .a (.inl rfl)).2, (hl .a).1, (hl .a).2]
        unfold lostToContactTime
        rw [hne]
        simp [ConfigImage.takesPart]
      have lb : ((t.applyContactTime .a).cfg.takesPart .b && ((t.applyContactTime .a).lane .b).contact == .present &&
          ((t.applyContactTime .a).lane .b).lastContact.any fun x =>
            (t.applyContactTime .a).cfg.laneContactMs < since (t.applyContactTime .a).now x) =
          lostToContactTime r s.cfg s.now .b := by
        have hc' : (t.applyContactTime .a).cfg = s.cfg := by unfold State.cfg at *; rw [b4]; exact hc
        have hn' : (t.applyContactTime .a).now = s.now := by unfold State.now at *; rw [b3]; exact hn
        rw [hc', hn', b5 .b nofun]
        unfold lostToContactTime
        rw [hne]
        have other : (Lane.b == Lane.a) = false := by decide
        by_cases hd : r.cfg.dual = s.cfg.dual
        · rw [(a5 .b (.inr hd)).1, (a5 .b (.inr hd)).2, (hl .b).1, (hl .b).2, hd]
          simp [ConfigImage.takesPart, other]
        · rw [a6 hd, other]
          cases hr : r.cfg.dual <;> cases hs : s.cfg.dual
          · exact absurd (hr.trans hs.symm) hd
          · simp
          · simp
          · exact absurd (hr.trans hs.symm) hd
      have hs' : (t.applyContactTime .a).seconds = s.seconds := by
        rw [← hs]; unfold State.seconds; rw [b3]
      refine ⟨?_, c2.trans (b2.trans a2), c3.trans (b3.trans a3)⟩
      rw [c1, b1, la, lb, hs, hs', ← FaultUnit.changed_append]
      simp only [List.filter_cons, List.filter_nil]
      cases lostToContactTime r s.cfg s.now .a <;> cases lostToContactTime r s.cfg s.now .b <;> rfl
  obtain ⟨l1, l2, l3⟩ := lanes
  have hs : (s.changeLanes r.cfg).seconds = s.seconds := by unfold State.seconds; rw [l3]
  rw [last _ (by rw [l2]; exact h), l1, hs, ← FaultUnit.changed_append]
  all_goals rfl

end State
end Sys2Proof.Machine
end

