-- ==== Sys2Proof/Laws/Finish.lean ====
section
/-!
SUPPORT. What the output supervisor's operations, the stance combiner's, the sequencer's reaction and the end of an event can
do. `OnlyOut`: the outputs and the fault unit alone; `OnlyHanded`: what blocks hand to one another; `Finished`: what the end
of an event leaves as it was.
-/
namespace Sys2Proof.Machine

/-- Only the output supervisor has changed, and the fault and notice unit by its own operations. -/
def OnlyOut (s t : State) : Prop := ∃ u o, s.faults.Reach u ∧ t = { s with faults := u, out := o }

/-- Only the lanes' stances have changed, and the fault and notice unit by its own operations. -/
def OnlyLanes (s t : State) : Prop :=
  ∃ u a b, s.faults.Reach u ∧ t = { s with faults := u, stances := { s.stances with laneA := a, laneB := b } }

/-- The stances with other consents and another disagreement supervision. -/
def Stances.withConsents (v : Stances) (a b : Option Consent) (d : Option Disagreement) : Stances :=
  { v with laneA := { v.laneA with consent := a }, laneB := { v.laneB with consent := b }, disagreement := d }

/-- A movement slot with its warned-at taken out. -/
def coldSlot (m : Option Movement) : Option Movement := m.map fun x => { x with warnedAt := none }

/-- Two slot vectors differ in warned-at alone. -/
def SameButWarned (v w : Vector (Option Movement) 16) : Prop := ∀ k : SlotId, coldSlot w[k] = coldSlot v[k]

/-- Only what the blocks hand to one another has changed: the sequencer's record, the outputs, what the approach timer has
handed, the lanes' consents, the disagreement supervision, warned-at, and the fault unit by its own operations. -/
def OnlyHanded (s t : State) : Prop :=
  ∃ u o q p v a b d, s.faults.Reach u ∧ SameButWarned s.tracker.slots v ∧
    t = { s with
      faults := u
      out := o
      seq := q
      approach := p
      tracker := { s.tracker with slots := v }
      stances := s.stances.withConsents a b d }

theorem OnlyOut.refl (s : State) : OnlyOut s s := ⟨_, _, .refl _, rfl⟩

theorem OnlyOut.trans {s t r : State} (h : OnlyOut s t) (h' : OnlyOut t r) : OnlyOut s r := by
  obtain ⟨u, o, hu, rfl⟩ := h
  obtain ⟨u', o', hu', rfl⟩ := h'
  exact ⟨u', o', hu.trans hu', rfl⟩

theorem OnlyFaults.out {s t : State} (h : OnlyFaults s t) : OnlyOut s t := by
  obtain ⟨u, hu, rfl⟩ := h
  exact ⟨u, _, hu, rfl⟩

theorem OnlyLanes.refl (s : State) : OnlyLanes s s := ⟨_, _, _, .refl _, rfl⟩

theorem OnlyLanes.trans {s t r : State} (h : OnlyLanes s t) (h' : OnlyLanes t r) : OnlyLanes s r := by
  obtain ⟨u, a, b, hu, rfl⟩ := h
  obtain ⟨u', a', b', hu', rfl⟩ := h'
  exact ⟨u', a', b', hu.trans hu', rfl⟩

theorem OnlyFaults.lanes {s t : State} (h : OnlyFaults s t) : OnlyLanes s t := by
  obtain ⟨u, hu, rfl⟩ := h
  exact ⟨u, _, _, hu, rfl⟩

theorem SameButWarned.refl (v : Vector (Option Movement) 16) : SameButWarned v v := fun _ => rfl

theorem SameButWarned.trans {u v w : Vector (Option Movement) 16} (h : SameButWarned u v) (h' : SameButWarned v w) :
    SameButWarned u w := fun k => (h' k).trans (h k)

theorem OnlyHanded.refl (s : State) : OnlyHanded s s :=
  ⟨_, s.out, s.seq, s.approach, s.tracker.slots, s.stances.laneA.consent, s.stances.laneB.consent, s.stances.disagreement,
    .refl _, .refl _, rfl⟩

theorem OnlyHanded.trans {s t r : State} (h : OnlyHanded s t) (h' : OnlyHanded t r) : OnlyHanded s r := by
  obtain ⟨u, o, q, p, v, a, b, d, hu, hv, rfl⟩ := h
  obtain ⟨u', o', q', p', v', a', b', d', hu', hv', rfl⟩ := h'
  exact ⟨u', o', q', p', v', a', b', d', hu.trans hu', hv.trans hv', rfl⟩

theorem OnlyOut.handed {s t : State} (h : OnlyOut s t) : OnlyHanded s t := by
  obtain ⟨u, o, hu, rfl⟩ := h
  exact ⟨u, o, s.seq, s.approach, s.tracker.slots, s.stances.laneA.consent, s.stances.laneB.consent,
    s.stances.disagreement, hu, .refl _, rfl⟩

theorem OnlyFaults.handed {s t : State} (h : OnlyFaults s t) : OnlyHanded s t := h.out.handed

namespace State

/-! ## Outputs -/

theorem onOut_outs (s : State) (f : Outputs → Outputs) : OnlyOut s (s.onOut f) := ⟨_, f s.out, .refl _, rfl⟩

theorem setBoom_outs (s : State) (i : BoomId) (b : Boom) : OnlyOut s (s.setBoom i b) := onOut_outs _ _

theorem setLamp_outs (s : State) (c : Channel) (l : Lamp) : OnlyOut s (s.setLamp c l) := onOut_outs _ _

theorem endBoomTest_outs (s : State) (i : BoomId) : OnlyOut s (s.endBoomTest i) := ite_run (setBoom_outs _ _ _) (.refl s)

theorem endBoomTests_outs (s : State) : OnlyOut s s.endBoomTests :=
  foldl_run OnlyOut.refl OnlyOut.trans _ (fun s i => endBoomTest_outs s i) _ s

theorem handOrders_outs (s : State) : OnlyOut s s.handOrders := onOut_outs _ _

theorem stopBoom_outs (s : State) (i : BoomId) (k : FaultKind) : OnlyOut s (s.stopBoom i k) := by
  unfold stopBoom
  extract_lets b _ s1
  have h1 : OnlyOut s s1 := (setBoom_outs _ _ _).trans (endBoomTest_outs _ _)
  exact h1.trans (raise_only _ _ _).out

theorem arriveBoom_outs (s : State) (i : BoomId) (o : Order) : OnlyOut s (s.arriveBoom i o) := by
  unfold arriveBoom
  extract_lets s1
  have h1 : OnlyOut s s1 := setBoom_outs _ _ _
  exact h1.trans (ite_run (endBoomTest_outs _ _) (.refl _))

theorem followContact_outs (s : State) (i : BoomId) : OnlyOut s (s.followContact i) :=
  ite_run (.refl s) (ite_run (arriveBoom_outs _ _ _) (ite_run (stopBoom_outs _ _ _) (.refl s)))

theorem regradeOther_only (s : State) (c : Channel) (v : Severity) : OnlyFaults s (s.regradeOther c v) := by
  unfold regradeOther
  split
  · exact ite_run (regrade_only _ _ _ _) (.refl s)
  · exact .refl s

theorem failLamp_outs (s : State) (c : Channel) : OnlyOut s (s.failLamp c) := by
  unfold failLamp
  extract_lets _ s1 v
  have h1 : OnlyOut s s1 := setLamp_outs _ _ _
  exact h1.trans ((raiseAt_only _ _ _ _).trans (regradeOther_only _ _ _)).out

theorem recoverLamp_outs (s : State) (c : Channel) : OnlyOut s (s.recoverLamp c) := by
  unfold recoverLamp
  extract_lets _ s1
  have h1 : OnlyOut s s1 := setLamp_outs _ _ _
  exact h1.trans ((clear_only _ _ _).trans (regradeOther_only _ _ _)).out

theorem judgeLit_outs (s : State) (c : Channel) (b : Bool) : OnlyOut s (s.judgeLit c b) := by
  unfold judgeLit
  split
  · exact setLamp_outs _ _ _
  · exact ite_run (failLamp_outs _ _) (setLamp_outs _ _ _)
  · exact setLamp_outs _ _ _
  · exact ite_run (recoverLamp_outs _ _) (setLamp_outs _ _ _)

theorem judgeDark_outs (s : State) (c : Channel) (n : Nat) : OnlyOut s (s.judgeDark c n) := by
  unfold judgeDark
  extract_lets l above s1
  have h1 : OnlyOut s s1 := setLamp_outs _ _ _
  exact ite_run (setLamp_outs _ _ _) (ite_run (setLamp_outs _ _ _)
    (h1.trans (ite_run (clear_only _ _ _).out (raise_only _ _ _).out)))

theorem judgePhase_outs (s : State) (c : Channel) (n : Nat) : OnlyOut s (s.judgePhase c n) := by
  unfold judgePhase
  extract_lets l
  exact ite_run (.refl s) (ite_run (judgeLit_outs _ _ _) (judgeDark_outs _ _ _))

theorem judgeTone_outs (s : State) (n : Nat) : OnlyOut s (s.judgeTone n) := by
  unfold judgeTone
  extract_lets a below put
  have hp : ∀ x y, OnlyOut s (put x y) := fun x y => onOut_outs _ _
  exact ite_run (hp _ _) (ite_run (hp _ _) (ite_run ((hp _ _).trans (clear_only _ _ _).out)
    ((hp _ _).trans (raise_only _ _ _).out)))

theorem judgeAll_outs (s : State) (i : Currents) : OnlyOut s (s.judgeAll i) :=
  foldl_run OnlyOut.refl OnlyOut.trans _ (fun s c => judgePhase_outs s c _) _ s

theorem judgePulse_outs (s : State) (i : RedCurrents) : OnlyOut s (s.judgePulse i) :=
  foldl_run OnlyOut.refl OnlyOut.trans _ (fun s c => judgeLit_outs s c _) _ s

theorem endLampTest_outs (s : State) : OnlyOut s s.endLampTest := by
  unfold endLampTest
  split
  · exact .refl s
  · exact (setLamp_outs _ _ _).trans (onOut_outs _ _)

/-! ## Stances -/

theorem setLane_lanes (s : State) (l : Lane) (x : LaneStance) : OnlyLanes s (s.setLane l x) := by
  cases l
  · exact ⟨_, x, s.stances.laneB, .refl _, rfl⟩
  · exact ⟨_, s.stances.laneA, x, .refl _, rfl⟩

theorem takeContact_lanes (s : State) (l : Lane) : OnlyLanes s (s.takeContact l) := by
  unfold takeContact
  extract_lets x s1
  have h1 : OnlyLanes s s1 := setLane_lanes _ _ _
  exact ite_run (h1.trans (clear_only _ _ _).lanes) h1

theorem loseLane_lanes (s : State) (l : Lane) : OnlyLanes s (s.loseLane l) :=
  (setLane_lanes _ _ _).trans (raise_only _ _ _).lanes

theorem contactBy_lanes (s : State) (p : Port) : OnlyLanes s (s.contactBy p) := by
  unfold contactBy
  split
  · exact takeContact_lanes _ _
  · exact .refl s

theorem dropConsents_handed (s : State) : OnlyHanded s (s.onStances Stances.dropConsents) :=
  ⟨_, s.out, s.seq, s.approach, s.tracker.slots, none, none, s.stances.disagreement, .refl _, .refl _, rfl⟩

/-! ## The sequencer -/

theorem onSeq_handed (s : State) (f : Sequencer → Sequencer) : OnlyHanded s (s.onSeq f) :=
  ⟨_, s.out, f s.seq, s.approach, s.tracker.slots, s.stances.laneA.consent, s.stances.laneB.consent,
    s.stances.disagreement, .refl _, .refl _, rfl⟩

/-- A new red start touches warned-at alone (R70). -/
theorem warnFrom_same (s : State) (t : Time) : SameButWarned s.tracker.slots (s.warnFrom t).tracker.slots := by
  intro k
  simp only [warnFrom, onTracker, coldSlot, Fin.getElem_fin, Vector.getElem_ofFn]
  cases s.tracker.slots[k.val] with
  | none => rfl
  | some m => simp only [Option.map_some]; split <;> rfl

theorem warnFrom_handed (s : State) (t : Time) : OnlyHanded s (s.warnFrom t) :=
  ⟨_, s.out, s.seq, s.approach, _, s.stances.laneA.consent, s.stances.laneB.consent, s.stances.disagreement, .refl _,
    warnFrom_same s t, rfl⟩

theorem enterState_handed (s : State) (st : SeqState) : OnlyHanded s (s.enterState st) := by
  unfold enterState
  extract_lets old s1 s2 s3 s4
  have h1 : OnlyHanded s s1 := onSeq_handed _ _
  have h2 : OnlyHanded s1 s2 := ite_run (dropConsents_handed _) (.refl _)
  have h3 : OnlyHanded s2 s3 := ite_run (clearDisagree_only _).handed (.refl _)
  have h4 : OnlyHanded s3 s4 := ((onOut_outs _ _).trans (handOrders_outs _)).handed
  exact (((h1.trans h2).trans h3).trans h4).trans (ite_run (warnFrom_handed _ _) (.refl _))

theorem endClosing_handed (s : State) : OnlyHanded s s.endClosing :=
  ite_run ((onSeq_handed _ _).trans (enterState_handed _ _)) (enterState_handed _ _)

theorem react_handed (s : State) (b : Bool) : OnlyHanded s (s.react b) := by
  have e := fun st => enterState_handed s st
  unfold react
  split
  · exact e _
  · split
    · exact ite_run (e _) (.refl s)
    · exact .refl s
    · exact .refl s
    · exact .refl s
    · exact ite_run (e _) (.refl s)
    · exact ite_run (endClosing_handed s) (.refl s)
    · exact ite_run (endClosing_handed s) (.refl s)
    · exact ite_run (e _) (.refl s)
    · exact ite_run (e _) (ite_run (e _) (.refl s))
    · exact ite_run (e _) (.refl s)

/-! ## The end of an event -/

theorem handApproach_handed (s : State) : OnlyHanded s s.handApproach := by
  unfold handApproach
  extract_lets old s1 s2
  have h1 : OnlyHanded s s1 :=
    ⟨_, s.out, s.seq, _, s.tracker.slots, s.stances.laneA.consent, s.stances.laneB.consent, s.stances.disagreement,
      .refl _, .refl _, rfl⟩
  have h2 : OnlyHanded s1 s2 := ite_run (dropConsents_handed _) (.refl _)
  exact (h1.trans h2).trans (ite_run (endBoomTests_outs _).handed (.refl _))

theorem handOutputs_handed (s : State) : OnlyHanded s s.handOutputs := by
  unfold handOutputs
  extract_lets b
  exact (onOut_outs _ _).handed.trans (onSeq_handed _ _)

theorem followSecondTrain_handed (s pre : State) : OnlyHanded s (s.followSecondTrain pre) :=
  ite_run (onSeq_handed _ _) (.refl s)

theorem followOutputs_handed (s : State) : OnlyHanded s s.followOutputs := ite_run (onOut_outs _ _).handed (.refl s)

theorem followDisagreement_handed (s : State) : OnlyHanded s s.followDisagreement :=
  ⟨_, s.out, s.seq, s.approach, s.tracker.slots, s.stances.laneA.consent, s.stances.laneB.consent, _, .refl _, .refl _,
    rfl⟩

theorem followProven_handed (s : State) : OnlyHanded s s.followProven := onSeq_handed _ _

theorem handRound_handed (s pre : State) : OnlyHanded s (s.handRound pre) := by
  unfold handRound
  extract_lets s1 b
  have h1 : OnlyHanded s s1 := handApproach_handed s
  exact ((((((h1.trans (handOutputs_handed _)).trans (react_handed _ _)).trans (followSecondTrain_handed _ _)).trans
    (followOutputs_handed _)).trans (followDisagreement_handed _)).trans (followProven_handed _))

theorem followStatus_only (s pre : State) : OnlyFaults s (s.followStatus pre) :=
  ite_run ⟨_, (FaultUnit.Reach.refl _).status _, rfl⟩ (.refl s)

/-- The lines that the end of an event drives touch no more of a port record than the line and its pulse (R180). -/
theorem driveLine_kept (s : State) (c b : Bool) (p : Port) (r : PortRecord) :
    ∃ l e, s.driveLine c b p r = { r with line := l, pulseEnd := e } := by
  unfold driveLine
  split
  · exact ⟨_, _, rfl⟩
  · dsimp only
    split <;> exact ⟨_, _, rfl⟩

end State

/-- Two sets of port records differ in the attention lines and their pulses alone. -/
def SameButLines (v w : Ports) : Prop :=
  w.window = v.window ∧ ∀ p, ∃ l e, w.get p = { v.get p with line := l, pulseEnd := e }

/-- What the end of an event leaves as it was: it hands round, advances the generation number, queues a CROSSING-STATUS and
drives the attention lines, and does nothing else. -/
def Finished (s t : State) : Prop :=
  ∃ u m g v, OnlyHanded s m ∧ m.faults.Reach u ∧ SameButLines s.ports v ∧
    t = { m with faults := u, tracker := { m.tracker with generation := g }, ports := v }

namespace State

theorem driveLines_same (s : State) (c b : Bool) : SameButLines s.ports (s.driveLines c b).ports := by
  refine ⟨rfl, fun p => ?_⟩
  cases p
  · exact driveLine_kept s c b .laneA s.ports.laneA
  · exact driveLine_kept s c b .laneB s.ports.laneB
  · exact driveLine_kept s c b .signaller s.ports.signaller
  · exact driveLine_kept s c b .service s.ports.service

theorem finish_finished (pre s : State) (b : Bool) : Finished s (finish pre s b) := by
  unfold finish
  extract_lets s1 c s2
  have h1 : OnlyHanded s s1 := handRound_handed s pre
  clear_value s1
  have hg : ∃ g, s1.advanceGeneration c = { s1 with tracker := { s1.tracker with generation := g } } := by
    unfold advanceGeneration
    split
    · exact ⟨_, rfl⟩
    · exact ⟨_, rfl⟩
  obtain ⟨g, hg⟩ := hg
  obtain ⟨u, hu, h2⟩ : OnlyFaults (s1.advanceGeneration c) s2 := followStatus_only _ _
  clear_value s2
  subst h2
  rw [hg] at hu ⊢
  refine ⟨u, s1, g, _, h1, hu, ?_, rfl⟩
  have hp : s1.ports = s.ports := by
    obtain ⟨_, _, _, _, _, _, _, _, _, _, h⟩ := h1
    rw [h]
  rw [← hp]
  exact driveLines_same { s1 with tracker := { s1.tracker with generation := g }, faults := u } c _

end State

namespace Finished

variable {s t : State}

theorem uptime (h : Finished s t) : t.uptime = s.uptime := by
  obtain ⟨_, _, _, _, ⟨_, _, _, _, _, _, _, _, _, _, rfl⟩, _, _, rfl⟩ := h; rfl
theorem heads (h : Finished s t) : t.heads = s.heads := by
  obtain ⟨_, _, _, _, ⟨_, _, _, _, _, _, _, _, _, _, rfl⟩, _, _, rfl⟩ := h; rfl
theorem sections (h : Finished s t) : t.sections = s.sections := by
  obtain ⟨_, _, _, _, ⟨_, _, _, _, _, _, _, _, _, _, rfl⟩, _, _, rfl⟩ := h; rfl
theorem store (h : Finished s t) : t.store = s.store := by
  obtain ⟨_, _, _, _, ⟨_, _, _, _, _, _, _, _, _, _, rfl⟩, _, _, rfl⟩ := h; rfl
theorem mon (h : Finished s t) : t.mon = s.mon := by
  obtain ⟨_, _, _, _, ⟨_, _, _, _, _, _, _, _, _, _, rfl⟩, _, _, rfl⟩ := h; rfl
theorem pending (h : Finished s t) : t.pending = s.pending := by
  obtain ⟨_, _, _, _, ⟨_, _, _, _, _, _, _, _, _, _, rfl⟩, _, _, rfl⟩ := h; rfl
theorem counter (h : Finished s t) : t.tracker.counter = s.tracker.counter := by
  obtain ⟨_, _, _, _, ⟨_, _, _, _, _, _, _, _, _, _, rfl⟩, _, _, rfl⟩ := h; rfl
theorem slots (h : Finished s t) : SameButWarned s.tracker.slots t.tracker.slots := by
  obtain ⟨_, _, _, _, ⟨_, _, _, _, _, _, _, _, _, hv, rfl⟩, _, _, rfl⟩ := h; exact hv
theorem maintenance (h : Finished s t) : t.stances.maintenance = s.stances.maintenance := by
  obtain ⟨_, _, _, _, ⟨_, _, _, _, _, _, _, _, _, _, rfl⟩, _, _, rfl⟩ := h; rfl
theorem permit (h : Finished s t) : t.stances.permit = s.stances.permit := by
  obtain ⟨_, _, _, _, ⟨_, _, _, _, _, _, _, _, _, _, rfl⟩, _, _, rfl⟩ := h; rfl
theorem stances (h : Finished s t) : ∃ a b d, t.stances = s.stances.withConsents a b d := by
  obtain ⟨_, _, _, _, ⟨_, _, _, _, _, _, _, _, _, _, rfl⟩, _, _, rfl⟩ := h; exact ⟨_, _, _, rfl⟩
theorem reach (h : Finished s t) : s.faults.Reach t.faults := by
  obtain ⟨_, _, _, _, ⟨_, _, _, _, _, _, _, _, hu, _, rfl⟩, hu', _, rfl⟩ := h; exact hu.trans hu'
theorem ports (h : Finished s t) : SameButLines s.ports t.ports := by
  obtain ⟨_, _, _, _, ⟨_, _, _, _, _, _, _, _, _, _, rfl⟩, _, hp, rfl⟩ := h; exact hp
theorem cfg (h : Finished s t) : t.cfg = s.cfg := by unfold State.cfg; rw [h.store]
theorem now (h : Finished s t) : t.now = s.now := by unfold State.now; rw [h.uptime]
theorem reply (h : Finished s t) (p : Port) : (t.port p).reply = (s.port p).reply := by
  obtain ⟨l, e, hp⟩ := h.ports.2 p; show (t.ports.get p).reply = _; rw [hp]; rfl
theorem shifted (h : Finished s t) (p : Port) : (t.port p).shifted = (s.port p).shifted := by
  obtain ⟨l, e, hp⟩ := h.ports.2 p; show (t.ports.get p).shifted = _; rw [hp]; rfl
theorem mode (h : Finished s t) (p : Port) : (t.port p).mode = (s.port p).mode := by
  obtain ⟨l, e, hp⟩ := h.ports.2 p; show (t.ports.get p).mode = _; rw [hp]; rfl
theorem window (h : Finished s t) : t.ports.window = s.ports.window := h.ports.1

end Finished

end Sys2Proof.Machine
end

