-- ==== Sys2Proof/Laws/Exec.lean ====
section
/-!
SUPPORT. The shape of every command: power, a value of the supply sense, an event with its effect, a request with its
arguments, an ignored transfer, a COLLECT, or a frame handed in as octets. Each command answers a next state, and the queue of
waiting commands is left alone.
-/
namespace Sys2Proof.Machine

/-- The shapes of the commands. -/
inductive Shape where
  | power (sense : Nat)
  | sense (dt sense : Nat)
  | event (dt : Nat) (effect : State → Option State)
  | request (dt : Nat) (k : RequestKind) (p : Port) (tag : Octet) (args : List Octet)
  | ignored (dt : Nat)
  | collect (dt : Nat) (p : Port) (clocked : Nat)
  | frame (dt : Nat) (p : Port) (octets : List Octet)

/-- What a command of a shape does. -/
def Shape.run : Shape → State → State
  | .power v, s => s.atPowerOn v
  | .sense dt v, s => s.takeSense dt v
  | .event dt f, s => s.event dt f
  | .request dt k p tag args, s => s.request dt k p tag args (State.serve k p args)
  | .ignored dt, s => s.ignore dt
  | .collect dt p n, s => s.collect dt p n
  | .frame dt p l, s => s.takeFrame dt p l

/-- The shape of a command. -/
def shape : Instr → Shape
  | .powerOn v => .power v
  | .supplyReset dt v => .sense dt v
  | .supplyResetHoldEnd v => .sense 0 v
  | .supplyStateChange dt v => .sense dt v
  | .stabilisationWaitEnd dt => .event dt State.stabilisationEffect
  | .readCompletion dt => .event dt State.readCompletionEffect
  | .readExpiry dt => .event dt State.readExpiryEffect
  | .transferIgnored dt _ _ => .ignored dt
  | .collect dt p n => .collect dt p n
  | .status dt p tag => .request dt .status p tag []
  | .poll dt p tag => .request dt .poll p tag []
  | .test dt p tag a => .request dt .test p tag [a]
  | .readMovements dt p tag a b => .request dt .readMovements p tag [a, b]
  | .readSections dt p tag => .request dt .readSections p tag []
  | .readHeads dt p tag => .request dt .readHeads p tag []
  | .readFaults dt p tag a b => .request dt .readFaults p tag [a, b]
  | .setAttention dt p tag a => .request dt .setAttention p tag [a]
  | .hold dt p tag => .request dt .hold p tag []
  | .release dt p tag => .request dt .release p tag []
  | .consent dt p tag n => .request dt .consent p tag (half n)
  | .agreeReset dt p tag a => .request dt .agreeReset p tag [a]
  | .depart dt p tag a => .request dt .depart p tag [a]
  | .reopenStanding dt p tag a => .request dt .reopenStanding p tag [a]
  | .resetSection dt p tag a b => .request dt .resetSection p tag [a, b]
  | .ackFault dt p tag a => .request dt .ackFault p tag [a]
  | .permitMaintenance dt p tag => .request dt .permitMaintenance p tag []
  | .withdrawPermit dt p tag => .request dt .withdrawPermit p tag []
  | .enterMaintenance dt p tag => .request dt .enterMaintenance p tag []
  | .leaveMaintenance dt p tag => .request dt .leaveMaintenance p tag []
  | .boomTest dt p tag a b => .request dt .boomTest p tag [a, b]
  | .lampTest dt p tag a => .request dt .lampTest p tag [a]
  | .setMasks dt p tag n => .request dt .setMasks p tag (half n)
  | .restart dt p tag => .request dt .restart p tag []
  | .loadWindow dt p tag a b c => .request dt .loadWindow p tag [a, b, c]
  | .loadData dt p tag a b l => .request dt .loadData p tag (a :: b :: l)
  | .loadContinue dt p tag a b l => .request dt .loadContinue p tag (a :: b :: l)
  | .readWindow dt p tag a b c d => .request dt .readWindow p tag [a, b, c, d]
  | .commit dt p tag => .request dt .commit p tag []
  | .writeCompletion dt b => .event dt (State.writeCompletionEffect b)
  | .writeExpiry dt => .event dt State.writeExpiryEffect
  | .sensorEvent dt h x l n => .event dt (State.sensorEffect h x l n)
  | .sensorStuckExpiry dt h x => .event dt (State.stuckEffect h x)
  | .headRecovery dt h => .event dt (State.recoveryEffect h)
  | .attentionPulseEnd dt p => .event dt (State.pulseEndEffect p)
  | .dueTimeReached dt k => .event dt (State.dueEffect k)
  | .raiseBlockerAppears dt k => .event dt (State.blockerEffect k)
  | .longApproachExpiry dt k => .event dt (State.longEffect k)
  | .amberExpiry dt => .event dt State.amberEffect
  | .boomDelayExpiry dt => .event dt State.boomDelayEffect
  | .exitWaitExpiry dt => .event dt State.exitWaitEffect
  | .minimumClosedExpiry dt => .event dt State.minimumClosedEffect
  | .secondTrainExpiry dt => .event dt State.secondTrainEffect
  | .laneContactExpiry dt l => .event dt (State.contactExpiryEffect l)
  | .laneNotHeardExpiry dt l => .event dt (State.notHeardEffect l)
  | .consentExpiry dt l => .event dt (State.consentExpiryEffect l)
  | .laneDisagreeExpiry dt => .event dt State.disagreeEffect
  | .resetAgreementLapse dt l => .event dt (State.agreementLapseEffect l)
  | .contactChange dt i c m n => .event dt (State.contactEffect i c m n)
  | .settleExpiry dt i => .event dt (State.settleEffect i)
  | .boomTravelExpiry dt i => .event dt (State.travelEffect i)
  | .restMarkExpiry dt i => .event dt (State.restMarkEffect i)
  | .contactConflictExpiry dt i => .event dt (State.conflictEffect i)
  | .boomRecoveryExpiry dt i => .event dt (State.boomRecoveryEffect i)
  | .phaseEnd dt i => .event dt (State.phaseEffect i)
  | .pulseTimerExpiry dt => .event dt State.pulseTimerEffect
  | .provingPulseEnd dt i => .event dt (State.pulseEffect i)
  | .lampTestEnd dt => .event dt State.lampTestEndEffect
  | .toneEnd dt n => .event dt (State.toneEffect n)
  | .requestFrameFailed dt p l => .frame dt p l

/-- Two octets of a number give the number again (R181). -/
theorem halfAt_half (n : Half) (l : List Octet) : halfAt (half n ++ l) 0 = n := by
  show n.extractLsb' 8 8 ++ n.extractLsb' 0 8 = n
  apply BitVec.eq_of_getLsbD_eq
  intro i hi
  simp only [BitVec.getLsbD_append, BitVec.getLsbD_extractLsb']
  split
  · simp_all
  · have : i - 8 < 8 := by omega
    have h : 8 + (i - 8) = i := by omega
    simp [this, h]

theorem halfAt_half' (n : Half) : halfAt (half n) 0 = n := by simpa using halfAt_half n []

/-- Every command does what its shape says. -/
theorem exec_shape (c : Instr) (s : State) : exec c s = .next ((shape c).run s) := by
  cases c <;> first
    | rfl
    | (simp only [shape, Shape.run, State.serve, halfAt_half']; rfl)

/-- Every command answers a next state (log 32). -/
theorem exec_next (c : Instr) (s : State) : ∃ t, exec c s = .next t := ⟨_, exec_shape c s⟩

/-- A step with a command in front runs it on the rest of the queue. -/
theorem step_cons (s : State) (c : Instr) (l : List Instr) (h : s.pending = c :: l) :
    step s = exec c { s with pending := l } := by unfold step; rw [h]

/-- A step with nothing waiting changes nothing (log 2). -/
theorem step_nil (s : State) (h : s.pending = []) : step s = .next s := by unfold step; rw [h]

end Sys2Proof.Machine
end

