-- ==== Sys2Proof/Laws/Kept.lean ====
section
/-!
SUPPORT. What every command keeps: the queue of waiting commands, and the fault and notice unit but for its own operations, a
restart and a reset. `Kept` is the relation that the effects of events and of requests satisfy.
-/
namespace Sys2Proof.Machine

/-- The fault and notice unit has changed by its own operations; time and the queue of commands are as they were. -/
def Kept (s t : State) : Prop := s.faults.Reach t.faults ∧ t.pending = s.pending ∧ t.uptime = s.uptime

theorem Kept.refl (s : State) : Kept s s := ⟨.refl _, rfl, rfl⟩

theorem Kept.trans {s t r : State} (h : Kept s t) (h' : Kept t r) : Kept s r :=
  ⟨h.1.trans h'.1, h'.2.1.trans h.2.1, h'.2.2.trans h.2.2⟩

theorem OnlyFaults.kept {s t : State} (h : OnlyFaults s t) : Kept s t := by
  obtain ⟨_, hu, rfl⟩ := h; exact ⟨hu, rfl, rfl⟩
theorem OnlyMoves.kept {s t : State} (h : OnlyMoves s t) : Kept s t := by
  obtain ⟨_, _, hu, rfl⟩ := h; exact ⟨hu, rfl, rfl⟩
theorem OnlyTrack.kept {s t : State} (h : OnlyTrack s t) : Kept s t := by
  obtain ⟨_, _, _, _, _, _, hu, rfl⟩ := h; exact ⟨hu, rfl, rfl⟩
theorem OnlyField.kept {s t : State} (h : OnlyField s t) : Kept s t := by
  obtain ⟨_, _, h, rfl⟩ := h; exact h.kept
theorem OnlyOut.kept {s t : State} (h : OnlyOut s t) : Kept s t := by
  obtain ⟨_, _, hu, rfl⟩ := h; exact ⟨hu, rfl, rfl⟩
theorem OnlyLanes.kept {s t : State} (h : OnlyLanes s t) : Kept s t := by
  obtain ⟨_, _, _, hu, rfl⟩ := h; exact ⟨hu, rfl, rfl⟩
theorem OnlyHanded.kept {s t : State} (h : OnlyHanded s t) : Kept s t := by
  obtain ⟨_, _, _, _, _, _, _, _, hu, _, rfl⟩ := h; exact ⟨hu, rfl, rfl⟩
theorem Finished.kept {s t : State} (h : Finished s t) : Kept s t := ⟨h.reach, h.pending, h.uptime⟩

namespace State

/-! ## The blocks' updates -/

theorem onHeads_kept (s : State) (f : Vector Head 12 → Vector Head 12) : Kept s (s.onHeads f) := ⟨.refl _, rfl, rfl⟩
theorem onSections_kept (s : State) (f : Vector Section 10 → Vector Section 10) : Kept s (s.onSections f) :=
  ⟨.refl _, rfl, rfl⟩
theorem onTracker_kept (s : State) (f : Tracker → Tracker) : Kept s (s.onTracker f) := ⟨.refl _, rfl, rfl⟩
theorem onStances_kept (s : State) (f : Stances → Stances) : Kept s (s.onStances f) := ⟨.refl _, rfl, rfl⟩
theorem onSeq_kept (s : State) (f : Sequencer → Sequencer) : Kept s (s.onSeq f) := ⟨.refl _, rfl, rfl⟩
theorem onPorts_kept (s : State) (f : Ports → Ports) : Kept s (s.onPorts f) := ⟨.refl _, rfl, rfl⟩
theorem onStore_kept (s : State) (f : Store → Store) : Kept s (s.onStore f) := ⟨.refl _, rfl, rfl⟩
theorem onMon_kept (s : State) (f : Monitor → Monitor) : Kept s (s.onMon f) := ⟨.refl _, rfl, rfl⟩

/-! ## Start-up -/

theorem takeEffect_kept (s : State) : Kept s s.takeEffect := ⟨.refl _, rfl, rfl⟩

theorem endRead_kept (s : State) : Kept s s.endRead := by
  unfold endRead
  extract_lets v s1
  have h1 : Kept s s1 := ⟨.refl _, rfl, rfl⟩
  exact h1.trans (ite_run (.refl _) ⟨.refl _, rfl, rfl⟩)

theorem beginBlocks_kept (s : State) : Kept s s.beginBlocks :=
  ⟨((FaultUnit.Reach.refl _).status _).masks _, rfl, rfl⟩

theorem leaveStarting_kept (s : State) : Kept s s.leaveStarting :=
  ((endRead_kept s).trans (beginBlocks_kept _)).trans (startFaults_only _).kept

theorem followSupply_kept (s : State) (v : Nat) : Kept s (s.followSupply v) := by
  unfold followSupply
  extract_lets old new s1 s2 s3 s4
  have h1 : Kept s s1 := onMon_kept _ _
  have h2 : OnlyFaults s1 s2 := ite_run (raise_only _ _ _) (.refl _)
  have h3 : OnlyFaults s2 s3 := ite_run (raise_only _ _ _) (.refl _)
  have h4 : OnlyFaults s3 s4 := ite_run (clear_only _ _ _) (.refl _)
  exact h1.trans (((h2.trans h3).trans h4).trans (ite_run (clear_only _ _ _) (.refl _))).kept

/-! ## The configuration store -/

theorem replaceSections_kept (s : State) (c : ConfigImage) : Kept s (s.replaceSections c) := ⟨.refl _, rfl, rfl⟩

theorem disturbAll_track (s : State) : OnlyTrack s s.disturbAll :=
  foldl_run OnlyTrack.refl OnlyTrack.trans _ (fun s _ =>
    ite_run (disturb_track s _ _) ((clear_only s _ _).trans (clearFullFaults_only _ _)).track) _ s

theorem changeTopology_kept (s : State) (o : Option ConfigImage) (c : ConfigImage) : Kept s (s.changeTopology o c) := by
  unfold changeTopology
  extract_lets s1 s2
  have h1 : Kept s s1 :=
    (((discardMovements_moves s).kept.trans (replaceSections_kept _ _)).trans (disturbAll_track _).kept).trans
      (onHeads_kept _ _)
  exact (h1.trans (onStances_kept _ _)).trans (onSeq_kept _ _)

theorem setLane_kept (s : State) (l : Lane) (x : LaneStance) : Kept s (s.setLane l x) := (setLane_lanes s l x).kept

theorem changeArrangement_kept (s : State) (b : Bool) : Kept s (s.changeArrangement b) := by
  unfold changeArrangement
  extract_lets s1
  have h1 : Kept s s1 := ⟨.refl _, rfl, rfl⟩
  exact ite_run (.refl s) (h1.trans (ite_run (setLane_kept _ _ _)
    (((setLane_kept _ _ _).trans (clear_only _ _ _).kept).trans (clear_only _ _ _).kept)))

theorem applyContactTime_lanes (s : State) (l : Lane) : OnlyLanes s (s.applyContactTime l) := by
  unfold applyContactTime
  extract_lets x
  split
  · exact ite_run (loseLane_lanes _ _) (.refl s)
  · exact .refl s

theorem changeLanes_kept (s : State) (c : ConfigImage) : Kept s (s.changeLanes c) := by
  unfold changeLanes
  extract_lets s1
  have h1 : Kept s s1 := changeArrangement_kept _ _
  exact h1.trans (ite_run (.refl _) ((applyContactTime_lanes _ _).trans (applyContactTime_lanes _ _)).kept)

theorem leaveUnconfigured_kept (s : State) : Kept s s.leaveUnconfigured :=
  ite_run ((onMon_kept _ _).trans (onStances_kept _ _)) (.refl s)

theorem accept_kept (s : State) : Kept s s.accept := by
  unfold accept
  extract_lets old before new s1 s2
  have h1 : Kept s s1 := ⟨.refl _, rfl, rfl⟩
  have h2 : Kept s1 s2 := ite_run (changeTopology_kept _ _ _) (ite_run (recomputeAll_moves _).kept (.refl _))
  exact ((((h1.trans h2).trans (changeLanes_kept _ _)).trans (leaveUnconfigured_kept _)).trans
    (clear_only _ _ _).kept).trans (onStore_kept _ _)

theorem writeSucceeds_kept (s : State) : Kept s s.writeSucceeds :=
  (onStore_kept _ _).trans (clear_only _ _ _).kept

theorem writeFails_kept (s : State) : Kept s s.writeFails := (onStore_kept _ _).trans (raise_only _ _ _).kept

/-! ## Requests -/

theorem endMaintenance_kept (s : State) : Kept s s.endMaintenance := by
  unfold endMaintenance
  extract_lets s1 s2 s3
  have h1 : Kept s s3 := ⟨.refl _, rfl, rfl⟩
  exact (h1.trans (endBoomTests_outs _).kept).trans (endLampTest_outs _).kept

theorem driveLines_kept (s : State) (a b : Bool) : Kept s (s.driveLines a b) := ⟨.refl _, rfl, rfl⟩

/-- What a request does besides its reply, whatever its kind. -/
theorem serve_kept (k : RequestKind) (p : Port) (a : List Octet) (s : State) : Kept s (serve k p a s).s := by
  have hw : ∀ w pos n l, Kept s (s.writeStaging w pos n l).s := fun _ _ _ _ => ⟨.refl _, rfl, rfl⟩
  have hl : ∀ t n l (f : LoadWindow → Nat), Kept s (s.loadEntries t n l f).s := by
    intro t n l f
    unfold loadEntries
    split
    · exact .refl s
    · split
      · exact .refl s
      · split
        · exact hw _ _ _ _
        · exact .refl s
  cases k <;> unfold serve
  · exact .refl s
  · show Kept s (driveLines _ _ _)
    have h : Kept s (s.onFaults fun u => polled u (takeNotices noticeBudget s.faults.queue).2) :=
      ⟨(FaultUnit.Reach.refl _).poll _, rfl, rfl⟩
    exact h.trans (driveLines_kept _ _ _)
  · show Kept s (test _ s).s
    unfold test; split <;> exact .refl s
  · show Kept s (readMovements _ _ s).s
    unfold readMovements; split <;> exact .refl s
  · exact .refl s
  · exact .refl s
  · show Kept s (readFaults _ _ s).s
    unfold readFaults; split <;> exact .refl s
  · show Kept s (setAttention _ _ s).s
    unfold setAttention; split <;> exact ⟨.refl _, rfl, rfl⟩
  · show Kept s (hold _ s).s
    unfold hold; cases p <;> exact ⟨.refl _, rfl, rfl⟩
  · show Kept s (release _ s).s
    exact ⟨.refl _, rfl, rfl⟩
  · show Kept s (consent _ _ s).s
    unfold consent; split
    · unfold consentOf; split
      · exact .refl s
      · split
        · exact .refl s
        · split
          · exact .refl s
          · exact setLane_kept _ _ _
    · exact .refl s
  · show Kept s (agreeReset _ _ s).s
    unfold agreeReset; split
    · exact .refl s
    · split
      · exact .refl s
      · split
        · exact setLane_kept _ _ _
        · exact .refl s
  · show Kept s (depart _ s).s
    unfold depart; split
    · exact .refl s
    · split
      · exact .refl s
      · split
        · exact (recompute_moves _ _ _).kept
        · exact .refl s
  · show Kept s (reopenStanding _ s).s
    unfold reopenStanding; split
    · exact .refl s
    · split
      · exact .refl s
      · split
        · exact .refl s
        · split
          · exact (enterMovement_moves _ _ _ _ _ _).kept
          · exact .refl s
  · show Kept s (resetSection _ _ s).s
    unfold resetSection; split
    · split
      · exact .refl s
      · split
        · exact .refl s
        · split
          · exact (beginSweep_track _ _).kept
          · split
            · exact (restore_track _ _ _).kept
            · exact .refl s
    · exact .refl s
  · show Kept s (ackFault _ s).s
    unfold ackFault; split
    · exact .refl s
    · split
      · exact .refl s
      · next h => exact ⟨(FaultUnit.Reach.refl _).acknowledge _ _ h, rfl, rfl⟩
  · exact ⟨.refl _, rfl, rfl⟩
  · show Kept s (withdrawPermit s).s
    unfold withdrawPermit; split
    · exact (onStances_kept s _).trans (endMaintenance_kept _)
    · exact onStances_kept _ _
  · show Kept s (enterMaintenance s).s
    unfold enterMaintenance; split <;> exact ⟨.refl _, rfl, rfl⟩
  · exact endMaintenance_kept s
  · show Kept s (boomTest _ _ s).s
    unfold boomTest; split
    · split
      · exact .refl s
      · split
        · exact .refl s
        · split
          · exact .refl s
          · exact (setBoom_outs _ _ _).kept
    · exact .refl s
  · show Kept s (lampTest _ s).s
    unfold lampTest; split
    · exact .refl s
    · split
      · exact .refl s
      · exact ((setLamp_outs _ _ _).trans (onOut_outs _ _)).kept
  · show Kept s (setMasks _ s).s
    unfold setMasks; split
    · exact .refl s
    · exact ⟨(FaultUnit.Reach.refl _).masks _, rfl, rfl⟩
  · exact .refl s
  · show Kept s (loadWindow _ _ _ s).s
    unfold loadWindow; split
    · exact .refl s
    · split
      · exact .refl s
      · split
        · exact .refl s
        · exact ⟨.refl _, rfl, rfl⟩
  · exact hl _ _ _ _
  · exact hl _ _ _ _
  · show Kept s (readWindow _ _ _ _ s).s
    unfold readWindow; split
    · exact .refl s
    · split
      · exact .refl s
      · split <;> exact .refl s
  · show Kept s (commit s).s
    unfold commit; split
    · exact .refl s
    · split
      · exact .refl s
      · exact accept_kept s

theorem closeWindowIf_kept (s : State) (p : Port) (b : Bool) : Kept s (s.closeWindowIf p b) :=
  ite_run ⟨.refl _, rfl, rfl⟩ (.refl s)

theorem judge_kept (s : State) (k : RequestKind) (p : Port) (a l : List Octet) :
    Kept s (s.judge k p a (serve k p l)).s := by
  unfold judge
  split
  · exact .refl s
  · exact serve_kept k p l s

theorem frameError_kept (s : State) (p : Port) (tag code : Octet) (r : FrameReason) :
    Kept s (s.frameError p tag code r) := (closeWindowIf_kept s p true).trans ⟨.refl _, rfl, rfl⟩

end State

/-- What a taken request leaves: kept, or a restart of what was kept. -/
def KeptOrRestarted (s t : State) : Prop := Kept s t ∨ ∃ r, Kept s r ∧ t = r.restart

theorem State.takeRequest_kept (s : State) (k : RequestKind) (p : Port) (tag : Octet) (a : List Octet) :
    KeptOrRestarted s (s.takeRequest k p tag a (State.serve k p a)) := by
  unfold State.takeRequest
  extract_lets b t
  have hb : Kept s b.s :=
    ((State.contactBy_lanes s p).kept.trans (State.closeWindowIf_kept _ _ _)).trans (State.judge_kept _ _ _ _ _)
  have ht : Kept s t := (hb.trans (State.closeWindowIf_kept _ _ _)).trans ⟨.refl _, rfl, rfl⟩
  split
  · exact .inl (State.ite_run (ht.trans (State.finish_finished _ _ _).kept) ht)
  · exact .inl (ht.trans (State.finish_finished _ _ _).kept)
  · exact .inl (ht.trans (State.finish_finished _ _ _).kept)
  · exact .inr ⟨t, ht, rfl⟩

/-! ## Events -/

/-- The effect of an event is kept. -/
def EffectKept (f : State → Option State) : Prop := ∀ s t, f s = some t → Kept s t

/-- The event of an effect that is kept: the time moves on, and the rest is kept. -/
theorem State.event_kept {f : State → Option State} (hf : EffectKept f) (s : State) (dt : Nat) :
    s.event dt f = s ∨ Kept (s.advance dt) (s.event dt f) := by
  unfold State.event
  split
  · exact .inl rfl
  · extract_lets a
    split
    · next t ht => exact .inr ((hf _ _ ht).trans (State.finish_finished _ _ _).kept)
    · exact .inr (.refl _)

namespace State

/-- The effects of the events of the table are kept. -/
theorem effect_kept (c : Instr) {dt : Nat} {f : State → Option State} (h : shape c = .event dt f) : EffectKept f := by
  have he : ∀ {s : State} {b : Bool} {t r : State}, Kept s r → (if b then some r else none) = some t → Kept s t := by
    intro s b t r hk ht
    cases b <;> simp at ht
    subst ht; exact hk
  cases c <;> simp only [shape, Shape.event.injEq, reduceCtorEq] at h <;> obtain ⟨rfl, rfl⟩ := h <;> intro s t ht
  case stabilisationWaitEnd =>
    unfold stabilisationEffect at ht
    split at ht
    · exact he ((onMon_kept _ _).trans (takeEffect_kept _)) ht
    · cases ht
  case readCompletion =>
    unfold readCompletionEffect at ht
    split at ht
    · rw [Option.some.injEq] at ht; subst ht; exact leaveStarting_kept s
    · cases ht
    · cases ht
  case readExpiry =>
    unfold readExpiryEffect at ht
    split at ht
    · exact he (leaveStarting_kept s) ht
    · cases ht
    · cases ht
  case writeCompletion b =>
    unfold writeCompletionEffect at ht
    split at ht
    · cases ht
      split
      · exact writeSucceeds_kept s
      · exact writeFails_kept s
    · cases ht
  case writeExpiry =>
    unfold writeExpiryEffect at ht
    split at ht
    · exact he (writeFails_kept s) ht
    · cases ht
    · cases ht
  case sensorEvent => exact (sensorEffect_field ht).kept
  case sensorStuckExpiry => exact (stuckEffect_field ht).kept
  case headRecovery => exact (recoveryEffect_field ht).kept
  case attentionPulseEnd p =>
    unfold pulseEndEffect at ht
    split at ht
    · split at ht <;> cases ht
      exact ⟨.refl _, rfl, rfl⟩
    · cases ht
  case dueTimeReached => exact (dueEffect_moves ht).kept
  case raiseBlockerAppears => rw [blockerEffect_refl ht]; exact .refl s
  case longApproachExpiry => exact (longEffect_moves ht).kept
  case amberExpiry => exact he (enterState_handed s _).kept ht
  case boomDelayExpiry => exact he (enterState_handed s _).kept ht
  case exitWaitExpiry => exact he (enterState_handed s _).kept ht
  case minimumClosedExpiry =>
    unfold minimumClosedEffect at ht
    split at ht
    · exact he (onSeq_kept _ _) ht
    · cases ht
  case secondTrainExpiry =>
    unfold secondTrainEffect at ht
    split at ht
    · exact he (onSeq_kept _ _) ht
    · cases ht
  case laneContactExpiry l =>
    unfold contactExpiryEffect at ht
    split at ht
    · exact he (loseLane_lanes s l).kept ht
    · cases ht
  case laneNotHeardExpiry l =>
    unfold notHeardEffect at ht
    split at ht
    · exact he (loseLane_lanes s l).kept ht
    · cases ht
  case consentExpiry l =>
    unfold consentExpiryEffect at ht
    split at ht
    · exact he (onStances_kept _ _) ht
    · cases ht
  case laneDisagreeExpiry =>
    unfold disagreeEffect at ht
    split at ht
    · exact he ((onStances_kept _ _).trans (raise_only _ _ _).kept) ht
    · cases ht
  case resetAgreementLapse l =>
    unfold agreementLapseEffect at ht
    split at ht
    · exact he (setLane_kept _ _ _) ht
    · cases ht
  case contactChange =>
    unfold contactEffect at ht
    split at ht
    · cases ht
    · split at ht
      · cases ht
      · cases ht; exact ((setBoom_outs _ _ _).trans (followContact_outs _ _)).kept
  case settleExpiry i =>
    unfold settleEffect at ht
    split at ht
    · split at ht
      · cases ht
        exact ((setBoom_outs s _ _).trans (ite_run (endBoomTest_outs _ _) (.refl _))).kept
      · cases ht
    · cases ht
  case boomTravelExpiry =>
    unfold travelEffect at ht
    split at ht
    · exact he (stopBoom_outs _ _ _).kept ht
    · cases ht
  case restMarkExpiry =>
    unfold restMarkEffect at ht
    split at ht
    · exact he (setBoom_outs _ _ _).kept ht
    · cases ht
  case contactConflictExpiry =>
    unfold conflictEffect at ht
    split at ht
    · split at ht
      · split at ht
        · cases ht; exact (stopBoom_outs _ _ _).kept
        · split at ht
          · cases ht
          · cases ht; exact ((setBoom_outs _ _ _).trans (raise_only _ _ _).out).kept
      · cases ht
    · cases ht
  case boomRecoveryExpiry =>
    unfold boomRecoveryEffect at ht
    split at ht
    · exact he ((setBoom_outs _ _ _).trans (clearBoomFaults_only _ _).out).kept ht
    · cases ht
  case phaseEnd =>
    unfold phaseEffect at ht
    exact he ((judgeAll_outs _ _).trans (onOut_outs _ _)).kept ht
  case pulseTimerExpiry =>
    unfold pulseTimerEffect at ht
    split at ht
    · split at ht
      · cases ht
        exact ((onOut_outs s _).trans (ite_run (.refl _) (onOut_outs _ _))).kept
      · cases ht
    · cases ht
  case provingPulseEnd =>
    unfold pulseEffect at ht
    split at ht
    · exact he ((onOut_outs _ _).trans (judgePulse_outs _ _)).kept ht
    · cases ht
  case lampTestEnd =>
    unfold lampTestEndEffect at ht
    split at ht
    · exact he (endLampTest_outs _).kept ht
    · cases ht
  case toneEnd =>
    unfold toneEffect at ht
    split at ht
    · exact he ((judgeTone_outs _ _).trans (onOut_outs _ _)).kept ht
    · cases ht

end State

/-! ## Every command -/

/-- What every command leaves: the queue of waiting commands is as it was, and the fault and notice unit has gone on by its own
operations, taken its initial values, or been restarted. -/
def Ran (s t : State) : Prop :=
  t.pending = s.pending ∧
  (s.faults.Reach t.faults ∨ t.faults = FaultUnit.initial ∨ ∃ u, s.faults.Reach u ∧ t.faults = u.restarted)

/-- What is kept from a state with the same unit and queue has been run. -/
theorem Kept.ran {r t : State} (h : Kept r t) (s : State) (hp : r.pending = s.pending) (hf : r.faults = s.faults) :
    Ran s t :=
  ⟨h.2.1.trans hp, .inl (hf ▸ h.1)⟩

theorem KeptOrRestarted.ran {r t : State} (h : KeptOrRestarted r t) (s : State) (hp : r.pending = s.pending)
    (hf : r.faults = s.faults) : Ran s t := by
  rcases h with h | ⟨q, h, rfl⟩
  · exact h.ran s hp hf
  · exact ⟨h.2.1.trans hp, .inr (.inr ⟨q.faults, hf ▸ h.1, rfl⟩)⟩

namespace State

theorem takeSense_ran (s : State) (dt v : Nat) : Ran s (s.takeSense dt v) := by
  unfold takeSense
  split
  · exact ite_run (R := Ran) ⟨rfl, .inl (.refl _)⟩ ⟨rfl, .inl (.refl _)⟩
  · split
    · exact ⟨rfl, .inr (.inl rfl)⟩
    · exact ((followSupply_kept (s.advance dt) v).trans (finish_finished _ _ _).kept).ran s rfl rfl

theorem request_ran (s : State) (dt : Nat) (k : RequestKind) (p : Port) (tag : Octet) (a : List Octet) :
    Ran s (s.request dt k p tag a (serve k p a)) := by
  unfold request
  extract_lets zeros r
  split
  · exact (Kept.refl (s.shiftOut p zeros)).ran s rfl rfl
  · split
    · exact (frameError_kept r _ _ _ _).ran s rfl rfl
    · split
      · exact (frameError_kept r _ _ _ _).ran s rfl rfl
      · exact (takeRequest_kept r _ _ _ _).ran s rfl rfl

theorem takeFrame_ran (s : State) (dt : Nat) (p : Port) (l : List Octet) : Ran s (s.takeFrame dt p l) := by
  unfold takeFrame
  extract_lets zeros r
  split
  · exact (Kept.refl (s.shiftOut p zeros)).ran s rfl rfl
  · split
    · exact (frameError_kept r _ _ _ _).ran s rfl rfl
    · exact (takeRequest_kept r _ _ _ _).ran s rfl rfl

theorem collect_ran (s : State) (dt : Nat) (p : Port) (n : Nat) : Ran s (s.collect dt p n) := by
  unfold collect
  split
  · exact ⟨rfl, .inl (.refl _)⟩
  · exact ⟨rfl, .inl (.refl _)⟩

theorem ignore_ran (s : State) (dt : Nat) : Ran s (s.ignore dt) := by
  unfold ignore
  split
  · exact ⟨rfl, .inl (.refl _)⟩
  · exact ⟨rfl, .inl (.refl _)⟩

end State

/-- What every command leaves, whatever its operands. -/
theorem run_ran (c : Instr) (s : State) : Ran s ((shape c).run s) := by
  cases hc : shape c with
  | power v => exact ⟨rfl, .inr (.inl rfl)⟩
  | sense dt v => exact s.takeSense_ran dt v
  | event dt f =>
    rcases State.event_kept (State.effect_kept c hc) s dt with h | h
    · show Ran s (s.event dt f)
      rw [h]; exact ⟨rfl, .inl (.refl _)⟩
    · exact h.ran s rfl rfl
  | request dt k p tag a => exact s.request_ran dt k p tag a
  | ignored dt => exact s.ignore_ran dt
  | collect dt p n => exact s.collect_ran dt p n
  | frame dt p l => exact s.takeFrame_ran dt p l

end Sys2Proof.Machine
end

