-- ==== Sys2Proof/Laws/Frame.lean ====
section
/-!
SUPPORT. The end of an event leaves `HandFrame` (`finish_frame`): the frame holds of each thing the end of an event does, and
the frames compose; and the cause set after it (`State.finish_causes`).
-/
namespace Sys2Proof.Machine

/-- The fault unit at the end of an event, as a relation that composes: every record stands but those of LANE-DISAGREE. -/
def UnitFrame (u v : FaultUnit) : Prop :=
  v.masks = u.masks ∧ v.sticky = u.sticky ∧ v.idCounter = u.idCounter ∧
  ∀ (p : Fin 31) (r : FaultRecord), u.table[p] = some r → r.kind ≠ .laneDisagree → v.table[p] = some r

/-- The part of `EventFrame` that composes: all of it but the slots, the stances, and the table where nothing is cleared. -/
def HandFrame (m t : State) : Prop :=
  t.uptime = m.uptime ∧ t.heads = m.heads ∧ t.sections = m.sections ∧ t.store = m.store ∧ t.mon = m.mon ∧
  t.pending = m.pending ∧ t.tracker.counter = m.tracker.counter ∧ OutFrame m.out t.out ∧ UnitFrame m.faults t.faults ∧
  t.ports.window = m.ports.window ∧ (∀ p, PortFrame (m.port p) (t.port p))

/-! ## The fault unit -/

theorem UnitFrame.refl (u : FaultUnit) : UnitFrame u u := ⟨rfl, rfl, rfl, fun _ _ h _ => h⟩

theorem UnitFrame.trans {u v w : FaultUnit} (h : UnitFrame u v) (h' : UnitFrame v w) : UnitFrame u w :=
  ⟨h'.1.trans h.1, h'.2.1.trans h.2.1, h'.2.2.1.trans h.2.2.1, fun p r hr hk => h'.2.2.2 p r (h.2.2.2 p r hr hk) hk⟩

namespace FaultUnit

theorem append_frame (u : FaultUnit) (n : Notice) : UnitFrame u (u.append n) := by
  unfold append
  split
  · exact ⟨rfl, rfl, rfl, fun _ _ h _ => h⟩
  · split <;> exact ⟨rfl, rfl, rfl, fun _ _ h _ => h⟩

theorem queueStatus_frame (u : FaultUnit) (st : StatusNotice) : UnitFrame u (u.queueStatus st) := by
  unfold queueStatus
  split
  · exact ⟨rfl, rfl, rfl, fun _ _ h _ => h⟩
  · exact append_frame _ _

theorem announceCleared_frame (u : FaultUnit) (r : FaultRecord) (t : BitVec 32) :
    UnitFrame u (u.announceCleared r t) := by
  unfold announceCleared
  split
  · exact .refl _
  · exact append_frame _ _

theorem clearOverflow_frame (u : FaultUnit) (t : BitVec 32) : UnitFrame u (u.clearOverflow t) := by
  unfold clearOverflow
  split
  · exact .refl _
  · split
    · exact UnitFrame.trans ⟨rfl, rfl, rfl, fun _ _ h _ => h⟩ (announceCleared_frame _ _ _)
    · exact UnitFrame.trans ⟨rfl, rfl, rfl, fun _ _ h _ => h⟩ (announceCleared_frame _ _ _)
    · exact .refl _

/-- What `find` answers is a record of the kind and subject, at its position. -/
theorem find_some {u : FaultUnit} {k : FaultKind} {x : Subject} {p : Fin 31} {r : FaultRecord}
    (h : u.find k x = some (p, r)) : u.table[p] = some r ∧ r.kind = k ∧ r.subject = x := by
  unfold find at h
  obtain ⟨q, -, hq⟩ := List.exists_of_findSome?_eq_some h
  split at hq
  · next r' hr' =>
    split at hq
    · next hk => cases hq; exact ⟨hr', hk⟩
    · cases hq
  · cases hq

/-- What a write or an erasure at one position leaves at the others. -/
theorem set_other {t : Vector (Option FaultRecord) 31} {p q : Fin 31} {x y : Option FaultRecord} (h : t[q] = y)
    (hpq : q ≠ p) : (t.set p x)[q] = y := by
  have : p.val ≠ q.val := fun e => hpq (Fin.ext e.symm)
  simpa [Fin.getElem_fin, Vector.getElem_set, this] using h

theorem clearDisagree_frame (u : FaultUnit) (t : BitVec 32) (x : Subject) :
    UnitFrame u (u.clear t .laneDisagree x) := by
  unfold clear
  split
  · exact .refl _
  · next p r h =>
    obtain ⟨hp, hk, -⟩ := find_some h
    have hne : ∀ (q : Fin 31) (r' : FaultRecord), u.table[q] = some r' → r'.kind ≠ .laneDisagree → q ≠ p := by
      intro q r' hq hk' e
      subst e
      rw [hp] at hq
      cases hq
      exact hk' hk
    split
    · refine (UnitFrame.trans ?_ (announceCleared_frame _ _ _)).trans (clearOverflow_frame _ _)
      exact ⟨rfl, rfl, rfl, fun q r' hq hk' => set_other hq (hne q r' hq hk')⟩
    · refine (UnitFrame.trans ?_ (announceCleared_frame _ _ _)).trans (clearOverflow_frame _ _)
      exact ⟨rfl, rfl, rfl, fun q r' hq hk' => set_other hq (hne q r' hq hk')⟩
    · exact .refl _

end FaultUnit

/-! ## Frames compose -/

theorem BoomFrame.refl (b : Boom) : BoomFrame b b := ⟨rfl, rfl, rfl, rfl, rfl, Iff.rfl⟩

theorem BoomFrame.trans {a b c : Boom} (h : BoomFrame a b) (h' : BoomFrame b c) : BoomFrame a c :=
  ⟨h'.1.trans h.1, h'.2.1.trans h.2.1, h'.2.2.1.trans h.2.2.1, h'.2.2.2.1.trans h.2.2.2.1,
    h'.2.2.2.2.1.trans h.2.2.2.2.1, h'.2.2.2.2.2.trans h.2.2.2.2.2⟩

theorem LampFrame.refl (l : Lamp) : LampFrame l l := ⟨rfl, rfl, rfl, rfl⟩

theorem LampFrame.trans {a b c : Lamp} (h : LampFrame a b) (h' : LampFrame b c) : LampFrame a c :=
  ⟨h'.1.trans h.1, h'.2.1.trans h.2.1, h'.2.2.1.trans h.2.2.1, h'.2.2.2.trans h.2.2.2⟩

theorem OutFrame.refl (o : Outputs) : OutFrame o o :=
  ⟨rfl, rfl, fun _ => .refl _, fun _ => .refl _, rfl, rfl, rfl⟩

theorem OutFrame.trans {a b c : Outputs} (h : OutFrame a b) (h' : OutFrame b c) : OutFrame a c :=
  ⟨h'.1.trans h.1, h'.2.1.trans h.2.1, fun i => (h.2.2.1 i).trans (h'.2.2.1 i),
    fun i => (h.2.2.2.1 i).trans (h'.2.2.2.1 i), h'.2.2.2.2.1.trans h.2.2.2.2.1, h'.2.2.2.2.2.1.trans h.2.2.2.2.2.1,
    h'.2.2.2.2.2.2.trans h.2.2.2.2.2.2⟩

theorem PortFrame.refl (r : PortRecord) : PortFrame r r := ⟨rfl, rfl, rfl⟩

theorem HandFrame.refl (s : State) : HandFrame s s :=
  ⟨rfl, rfl, rfl, rfl, rfl, rfl, rfl, .refl _, .refl _, rfl, fun _ => .refl _⟩

theorem HandFrame.trans {a b c : State} (h : HandFrame a b) (h' : HandFrame b c) : HandFrame a c := by
  obtain ⟨h1, h2, h3, h4, h5, h6, h7, h8, h9, h10, h11⟩ := h
  obtain ⟨k1, k2, k3, k4, k5, k6, k7, k8, k9, k10, k11⟩ := h'
  exact ⟨k1.trans h1, k2.trans h2, k3.trans h3, k4.trans h4, k5.trans h5, k6.trans h6, k7.trans h7, h8.trans k8,
    h9.trans k9, k10.trans h10,
    fun p => ⟨(k11 p).1.trans (h11 p).1, (k11 p).2.1.trans (h11 p).2.1, (k11 p).2.2.trans (h11 p).2.2⟩⟩

/-! ## What the end of an event does -/

/-- An order never takes a boom into STOPPED or out of it, and touches no contact. -/
theorem Boom.takeOrder_frame (b : Boom) (o : Order) (u n : Nat) : BoomFrame b (b.takeOrder o u n) := by
  unfold Boom.takeOrder
  split
  · exact .refl b
  · rcases b with ⟨st, _, _, _, _, _, _, rm, _, _, _, _, _⟩
    cases st <;> cases o <;> dsimp only [Boom.depart, Boom.settle, Boom.move, Boom.watchRecovery] <;>
      first
        | exact ⟨rfl, rfl, rfl, rfl, rfl, by simp⟩
        | (cases rm <;> exact ⟨rfl, rfl, rfl, rfl, rfl, by simp⟩)

theorem Booms.get_set (v : Booms) (i j : BoomId) (b : Boom) : (v.set i b).get j = if j = i then b else v.get j := by
  cases i <;> cases j <;> rfl

theorem Booms.get_build (f : BoomId → Boom) (j : BoomId) : (Booms.build f).get j = f j := by cases j <;> rfl

theorem Lamps.get_build (f : Channel → Lamp) (c : Channel) : (Lamps.build f).get c = f c := by cases c <;> rfl

theorem Lamps.get_set (v : Lamps) (c d : Channel) (l : Lamp) : (v.set c l).get d = if d = c then l else v.get d := by
  cases c <;> cases d <;> rfl

namespace State

theorem onOut_frame {s : State} {f : Outputs → Outputs} (h : OutFrame s.out (f s.out)) : HandFrame s (s.onOut f) :=
  ⟨rfl, rfl, rfl, rfl, rfl, rfl, rfl, h, .refl _, rfl, fun _ => .refl _⟩

theorem onStances_frame (s : State) (f : Stances → Stances) : HandFrame s (s.onStances f) :=
  ⟨rfl, rfl, rfl, rfl, rfl, rfl, rfl, .refl _, .refl _, rfl, fun _ => .refl _⟩

theorem onSeq_frame (s : State) (f : Sequencer → Sequencer) : HandFrame s (s.onSeq f) :=
  ⟨rfl, rfl, rfl, rfl, rfl, rfl, rfl, .refl _, .refl _, rfl, fun _ => .refl _⟩

theorem onFaults_frame {s : State} {f : FaultUnit → FaultUnit} (h : UnitFrame s.faults (f s.faults)) :
    HandFrame s (s.onFaults f) :=
  ⟨rfl, rfl, rfl, rfl, rfl, rfl, rfl, .refl _, h, rfl, fun _ => .refl _⟩

theorem onTracker_frame {s : State} {f : Tracker → Tracker} (hc : (f s.tracker).counter = s.tracker.counter) :
    HandFrame s (s.onTracker f) :=
  ⟨rfl, rfl, rfl, rfl, rfl, rfl, hc, .refl _, .refl _, rfl, fun _ => .refl _⟩

theorem onPorts_frame {s : State} {f : Ports → Ports} (hw : (f s.ports).window = s.ports.window)
    (hp : ∀ p, PortFrame (s.ports.get p) ((f s.ports).get p)) : HandFrame s (s.onPorts f) :=
  ⟨rfl, rfl, rfl, rfl, rfl, rfl, rfl, .refl _, .refl _, hw, hp⟩

theorem onApproach_frame (s : State) (f : Approach → Approach) : HandFrame s (s.onApproach f) :=
  ⟨rfl, rfl, rfl, rfl, rfl, rfl, rfl, .refl _, .refl _, rfl, fun _ => .refl _⟩

theorem dropConsents_frame (s : State) : HandFrame s (s.onStances Stances.dropConsents) :=
  onStances_frame _ _

theorem clearDisagree_frame (s : State) : HandFrame s s.clearDisagree := by
  have h : ∀ (s : State) x, HandFrame s (s.clear .laneDisagree x) := by
    intro s x
    unfold clear
    split
    · exact .refl s
    · exact onFaults_frame (FaultUnit.clearDisagree_frame _ _ _)
  exact (h s _).trans (h _ _)

theorem endBoomTest_frame (s : State) (i : BoomId) : HandFrame s (s.endBoomTest i) := by
  unfold endBoomTest
  extract_lets b
  split
  · refine onOut_frame ⟨rfl, rfl, fun j => ?_, fun _ => .refl _, rfl, rfl, rfl⟩
    show BoomFrame _ ((s.out.booms.set i _).get j)
    rw [Booms.get_set]
    split
    · next e =>
      subst e
      exact BoomFrame.trans ⟨rfl, rfl, rfl, rfl, rfl, Iff.rfl⟩ (Boom.takeOrder_frame _ _ _ _)
    · exact .refl _
  · exact .refl s

theorem endBoomTests_frame (s : State) : HandFrame s s.endBoomTests :=
  foldl_run HandFrame.refl HandFrame.trans _ endBoomTest_frame _ s

theorem handOrders_frame (s : State) : HandFrame s s.handOrders := by
  refine onOut_frame ⟨rfl, rfl, fun j => ?_, fun _ => .refl _, rfl, rfl, rfl⟩
  show BoomFrame _ ((Booms.build _).get j)
  rw [Booms.get_build]
  extract_lets b
  split
  · exact .refl _
  · exact Boom.takeOrder_frame _ _ _ _

theorem pulseOn_frame (s : State) (st : SeqState) : HandFrame s (s.onOut fun o => o.pulseOn st s.now) := by
  refine onOut_frame ?_
  unfold Outputs.pulseOn
  split <;> exact ⟨rfl, rfl, fun _ => .refl _, fun _ => .refl _, rfl, rfl, rfl⟩

theorem warnFrom_frame (s : State) (t : Time) : HandFrame s (s.warnFrom t) :=
  onTracker_frame rfl

theorem enterState_frame (s : State) (st : SeqState) : HandFrame s (s.enterState st) := by
  unfold enterState
  extract_lets old s1 s2 s3 s4
  have h1 : HandFrame s s1 := onSeq_frame _ _
  have h2 : HandFrame s1 s2 := ite_run (dropConsents_frame _) (.refl _)
  have h3 : HandFrame s2 s3 := ite_run (clearDisagree_frame _) (.refl _)
  have h4 : HandFrame s3 s4 := (pulseOn_frame _ _).trans (handOrders_frame _)
  exact (((h1.trans h2).trans h3).trans h4).trans (ite_run (warnFrom_frame _ _) (.refl _))

/-- The sequencer's reaction is one entry into another state, after a change of its causes at most, or nothing. -/
theorem react_cases (s : State) (b : Bool) :
    s.react b = s ∨ ∃ c st, s.seq.state ≠ st ∧ s.react b = (s.onSeq fun q => { q with causes := c }).enterState st := by
  have enters : ∀ st, s.seq.state ≠ st → s.enterState st = s ∨
      ∃ c st', s.seq.state ≠ st' ∧ s.enterState st = (s.onSeq fun q => { q with causes := c }).enterState st' :=
    fun st h => .inr ⟨s.seq.causes, st, h, rfl⟩
  unfold react
  split
  · next h => exact enters _ (by simp_all)
  · split
    all_goals
      next h => first
        | exact .inl rfl
        | (split
           · first
             | exact enters _ (by simp [h])
             | (unfold endClosing
                split
                · exact .inr ⟨_, .failedClosed, by simp [h], rfl⟩
                · exact enters _ (by simp [h]))
           · first
             | exact .inl rfl
             | (split
                · exact enters _ (by simp [h])
                · exact .inl rfl))

theorem react_frame (s : State) (b : Bool) : HandFrame s (s.react b) := by
  rcases react_cases s b with h | ⟨c, st, -, h⟩ <;> rw [h]
  · exact .refl s
  · exact (onSeq_frame _ _).trans (enterState_frame _ _)

theorem handApproach_frame (s : State) : HandFrame s s.handApproach := by
  unfold handApproach
  extract_lets old s1 s2
  have h1 : HandFrame s s1 := onApproach_frame _ _
  have h2 : HandFrame s1 s2 := ite_run (dropConsents_frame _) (.refl _)
  exact (h1.trans h2).trans (ite_run (endBoomTests_frame _) (.refl _))

theorem handOutputs_frame (s : State) : HandFrame s s.handOutputs := by
  unfold handOutputs
  extract_lets b
  exact (onOut_frame ⟨rfl, rfl, fun _ => .refl _, fun _ => .refl _, rfl, rfl, rfl⟩).trans (onSeq_frame _ _)

theorem driveLamps_frame (o : Outputs) (st : SeqState) (t : Time) (n : Nat) : OutFrame o (o.driveLamps st t n) := by
  unfold Outputs.driveLamps
  extract_lets f
  split
  · refine ⟨rfl, rfl, fun _ => .refl _, fun c => ?_, rfl, rfl, rfl⟩
    show LampFrame _ ((Lamps.build _).get c)
    rw [Lamps.get_build]
    exact ⟨rfl, rfl, rfl, rfl⟩
  · refine ⟨rfl, rfl, fun _ => .refl _, fun c => ?_, rfl, rfl, rfl⟩
    show LampFrame _ ((Lamps.build _).get c)
    rw [Lamps.get_build]
    unfold Lamp.drive
    split <;> exact ⟨rfl, rfl, rfl, rfl⟩

theorem followOutputs_frame (s : State) : HandFrame s s.followOutputs := by
  unfold followOutputs
  split
  · refine onOut_frame ((driveLamps_frame s.out s.seq.state s.now s.cfg.phaseMs).trans ?_)
    have ha : ∀ (a : Audible) c p t, (a.hand c p t).openCircuit = a.openCircuit ∧ (a.hand c p t).coilCount = a.coilCount := by
      intro a c p t; unfold Audible.hand; split <;> exact ⟨rfl, rfl⟩
    have he : (s.out.driveLamps s.seq.state s.now s.cfg.phaseMs).audible = s.out.audible := by
      unfold Outputs.driveLamps Outputs.beginPhase; dsimp only; split <;> rfl
    refine ⟨rfl, rfl, fun _ => .refl _, fun _ => .refl _, rfl, ?_, ?_⟩
    · rw [he]; exact (ha _ _ _ _).1
    · rw [he]; exact (ha _ _ _ _).2
  · exact .refl s

theorem handRound_frame (s pre : State) : HandFrame s (s.handRound pre) := by
  unfold handRound
  extract_lets s1 b
  have h1 : HandFrame s s1 := handApproach_frame s
  have h2 : ∀ s : State, HandFrame s (s.followSecondTrain pre) := fun s => ite_run (onSeq_frame _ _) (.refl s)
  have h3 : ∀ s : State, HandFrame s s.followDisagreement := fun s => onStances_frame _ _
  exact ((((((h1.trans (handOutputs_frame _)).trans (react_frame _ _)).trans (h2 _)).trans
    (followOutputs_frame _)).trans (h3 _)).trans (onSeq_frame _ _))

/-- The end of an event leaves the part of its frame that composes. -/
theorem finish_hand (pre s : State) (b : Bool) : HandFrame s (finish pre s b) := by
  unfold finish
  extract_lets s1 c s2
  have h1 : HandFrame s s1 := handRound_frame s pre
  have hg : HandFrame s1 (s1.advanceGeneration c) := by
    unfold advanceGeneration
    split
    · exact onTracker_frame rfl
    · exact .refl _
  have h2 : HandFrame (s1.advanceGeneration c) s2 :=
    ite_run (onFaults_frame (FaultUnit.queueStatus_frame _ _)) (.refl _)
  refine ((h1.trans hg).trans h2).trans ?_
  refine onPorts_frame rfl fun p => ?_
  obtain ⟨l, e, h⟩ := (driveLines_same s2 c (s2.seq.state != pre.seq.state)).2 p
  have h' : ((s2.ports.mapPorts (s2.driveLine c (s2.seq.state != pre.seq.state))).get p) = _ := h
  rw [h']
  exact ⟨rfl, rfl, rfl⟩

/-! ## An entry into a state -/

section
variable (s : State) (st : SeqState)

theorem enterState_seq : (s.enterState st).seq = s.seq.enter s.cfg st s.now := by
  unfold enterState
  extract_lets old s1 s2 s3 s4
  have h2 : s2.seq = s1.seq := by unfold s2; split <;> rfl
  have h3 : s3.seq = s2.seq := by
    unfold s3; split
    · obtain ⟨_, _, h⟩ := clearDisagree_only s2; rw [h]
    · rfl
  show (if _ then s4.warnFrom _ else s4).seq = _
  have h4 : s4.seq = s3.seq := rfl
  rw [apply_ite State.seq]
  show (if _ then s4.seq else s4.seq) = _
  rw [ite_self, h4, h3, h2]
  rfl

theorem enterState_slot (k : SlotId) : (s.enterState st).slot k = (s.slot k).map fun x =>
    if setsRedStart s.seq.state st && x.demanding && x.warnedAt.isNone then { x with warnedAt := some s.now } else x := by
  unfold enterState
  extract_lets old s1 s2 s3 s4
  have h1 : s1.tracker = s.tracker ∧ s1.uptime = s.uptime := ⟨rfl, rfl⟩
  have h2 : s2.tracker = s1.tracker ∧ s2.uptime = s1.uptime := by unfold s2; split <;> exact ⟨rfl, rfl⟩
  have h3 : s3.tracker = s2.tracker ∧ s3.uptime = s2.uptime := by
    unfold s3; split
    · obtain ⟨_, _, h⟩ := clearDisagree_only s2; rw [h]; exact ⟨rfl, rfl⟩
    · exact ⟨rfl, rfl⟩
  have ht : s4.tracker = s.tracker := h3.1.trans (h2.1.trans h1.1)
  have hn : s4.now = s.now := by
    show clockAt s3.uptime = clockAt s.uptime
    rw [h3.2, h2.2, h1.2]
  have he : old.state = s.seq.state := rfl
  show (if setsRedStart old.state st = true then s4.warnFrom s4.now else s4).slot k = _
  rw [he, hn]
  unfold slot
  cases setsRedStart s.seq.state st
  · simp [ht]
  · simp only [if_true, Bool.true_and, warnFrom, onTracker, Fin.getElem_fin, Vector.getElem_ofFn, ht]

theorem enterState_lane (l : Lane) : (s.enterState st).lane l =
    if newClosure s.seq.state st || s.seq.state == .closed then { s.lane l with consent := none } else s.lane l := by
  unfold enterState
  extract_lets old s1 s2 s3 s4
  have h3 : s3.stances = s2.stances := by
    unfold s3; split
    · obtain ⟨_, _, h⟩ := clearDisagree_only s2; rw [h]
    · rfl
  have h4 : (if setsRedStart old.state st = true then s4.warnFrom s4.now else s4).stances = s2.stances := by
    rw [apply_ite State.stances]
    show (if _ then s3.stances else s3.stances) = _
    rw [ite_self, h3]
  show (State.stances _).lane l = _
  rw [h4]
  unfold s2
  have he : old.state = s.seq.state := rfl
  rw [he]
  split <;> cases l <;> rfl

theorem enterState_rest : (s.enterState st).approach = s.approach ∧
    (s.enterState st).stances.disagreement = s.stances.disagreement ∧
    (s.enterState st).stances.signallerHold = s.stances.signallerHold ∧
    (s.enterState st).stances.serviceHold = s.stances.serviceHold ∧
    (s.enterState st).stances.permit = s.stances.permit ∧
    (s.enterState st).stances.maintenance = s.stances.maintenance := by
  unfold enterState
  extract_lets old s1 s2 s3 s4
  have h2 : s2.approach = s.approach ∧ s2.stances.disagreement = s.stances.disagreement ∧
      s2.stances.signallerHold = s.stances.signallerHold ∧ s2.stances.serviceHold = s.stances.serviceHold ∧
      s2.stances.permit = s.stances.permit ∧ s2.stances.maintenance = s.stances.maintenance := by
    unfold s2; split <;> exact ⟨rfl, rfl, rfl, rfl, rfl, rfl⟩
  have h3 : s3.stances = s2.stances ∧ s3.approach = s2.approach := by
    unfold s3; split
    · obtain ⟨_, _, h⟩ := clearDisagree_only s2; rw [h]; exact ⟨rfl, rfl⟩
    · exact ⟨rfl, rfl⟩
  have h4 : s4.stances = s2.stances ∧ s4.approach = s2.approach := h3
  clear_value s4 s2
  split
  · show s4.approach = _ ∧ s4.stances.disagreement = _ ∧ s4.stances.signallerHold = _ ∧ s4.stances.serviceHold = _ ∧
      s4.stances.permit = _ ∧ s4.stances.maintenance = _
    rw [h4.1, h4.2]; exact h2
  · rw [h4.1, h4.2]; exact h2

theorem enterState_faults (h : (newClosure s.seq.state st || st == .raising) = false) :
    (s.enterState st).faults = s.faults := by
  unfold enterState
  extract_lets old s1 s2 s3 s4
  have h2 : s2.faults = s.faults := by unfold s2; split <;> rfl
  have h3 : s3 = s2 := by unfold s3; rw [if_neg]; exact Bool.eq_false_iff.mp h
  show (if _ then s4.warnFrom _ else s4).faults = _
  rw [apply_ite State.faults]
  show (if _ then s3.faults else s3.faults) = _
  rw [ite_self, h3, h2]

end

/-! ## The whole frame -/

/-- What the later stages of the end of an event leave: the slots, the stances, the sequencer's place in the sequence, and
the fault table. -/
def Still (a b : State) : Prop :=
  (∀ k, b.slot k = a.slot k) ∧ b.seq.state = a.seq.state ∧ b.seq.closure = a.seq.closure ∧
  b.seq.redStart = a.seq.redStart ∧ b.approach.demand = a.approach.demand ∧ b.faults.table = a.faults.table ∧
  b.faults.clearedOrder = a.faults.clearedOrder ∧ b.faults.overflow = a.faults.overflow

theorem Still.refl (s : State) : Still s s := ⟨fun _ => rfl, rfl, rfl, rfl, rfl, rfl, rfl, rfl⟩

theorem Still.trans {a b c : State} (h : Still a b) (h' : Still b c) : Still a c := by
  obtain ⟨h1, h2, h3, h4, h5, h6, h7, h8⟩ := h
  obtain ⟨k1, k2, k3, k4, k5, k6, k7, k8⟩ := h'
  exact ⟨fun k => (k1 k).trans (h1 k), k2.trans h2, k3.trans h3, k4.trans h4, k5.trans h5, k6.trans h6, k7.trans h7,
    k8.trans h8⟩

/-- What the handing of the approach timer does to the stances: a demand that appears drops the consents. -/
theorem handApproach_does (s : State) :
    (∀ k, s.handApproach.slot k = s.slot k) ∧ s.handApproach.seq = s.seq ∧ s.handApproach.faults = s.faults ∧
    s.handApproach.uptime = s.uptime ∧
    s.handApproach.stances =
      if !s.approach.demand && s.handApproach.approach.demand then s.stances.dropConsents else s.stances := by
  unfold handApproach
  extract_lets old s1 s2
  have hb : ∀ s : State, s.endBoomTests.tracker = s.tracker ∧ s.endBoomTests.seq = s.seq ∧
      s.endBoomTests.faults = s.faults ∧ s.endBoomTests.uptime = s.uptime ∧ s.endBoomTests.stances = s.stances ∧
      s.endBoomTests.approach = s.approach := by
    intro s
    refine foldl_run (R := fun a b : State => b.tracker = a.tracker ∧ b.seq = a.seq ∧ b.faults = a.faults ∧
      b.uptime = a.uptime ∧ b.stances = a.stances ∧ b.approach = a.approach) (fun _ => ⟨rfl, rfl, rfl, rfl, rfl, rfl⟩)
      (fun h h' => ⟨h'.1.trans h.1, h'.2.1.trans h.2.1, h'.2.2.1.trans h.2.2.1, h'.2.2.2.1.trans h.2.2.2.1,
        h'.2.2.2.2.1.trans h.2.2.2.2.1, h'.2.2.2.2.2.trans h.2.2.2.2.2⟩) _ (fun s i => ?_) _ s
    unfold endBoomTest
    extract_lets b
    split <;> exact ⟨rfl, rfl, rfl, rfl, rfl, rfl⟩
  have h2 : s2.tracker = s.tracker ∧ s2.seq = s.seq ∧ s2.faults = s.faults ∧ s2.uptime = s.uptime ∧
      s2.approach = s1.approach ∧
      s2.stances = if !s.approach.demand && s1.approach.demand then s.stances.dropConsents else s.stances := by
    have e : (s1.approach.demand && !old.demand) = (!s.approach.demand && s1.approach.demand) := Bool.and_comm _ _
    unfold s2
    rw [e]
    split <;> exact ⟨rfl, rfl, rfl, rfl, rfl, rfl⟩
  obtain ⟨a1, a2, a3, a4, a5, a6⟩ := h2
  split
  · obtain ⟨b1, b2, b3, b4, b5, b6⟩ := hb s2
    refine ⟨fun k => ?_, b2.trans a2, b3.trans a3, b4.trans a4, ?_⟩
    · unfold slot; rw [b1, a1]
    · rw [b5, a6, b6, a5]
  · refine ⟨fun k => ?_, a2, a3, a4, ?_⟩
    · unfold slot; rw [a1]
    · rw [a6, a5]

/-- The last stages touch the generation number, the queue and the attention lines alone. -/
theorem lastStages_do (pre s : State) (c b : Bool) :
    ∃ g q n v, ((s.advanceGeneration c).followStatus pre).driveLines c b = { s with
      tracker := { s.tracker with generation := g }
      faults := { s.faults with queue := q, overflowCount := n }
      ports := v } := by
  have hg : ∃ g, s.advanceGeneration c = { s with tracker := { s.tracker with generation := g } } := by
    unfold advanceGeneration
    split
    · exact ⟨_, rfl⟩
    · exact ⟨_, rfl⟩
  obtain ⟨g, hg⟩ := hg
  rw [hg]
  unfold followStatus
  split
  · unfold driveLines onPorts onFaults FaultUnit.queueStatus
    dsimp only
    split
    · exact ⟨_, _, _, _, rfl⟩
    · unfold FaultUnit.append
      split
      · exact ⟨_, _, _, _, rfl⟩
      · split <;> exact ⟨_, _, _, _, rfl⟩
  · exact ⟨_, _, _, _, rfl⟩

/-- The stages between the sequencer's transition and the generation number. -/
theorem middleStages_do (pre r : State) :
    Still r (r.followSecondTrain pre).followOutputs.followDisagreement.followProven ∧
    ∃ d, (r.followSecondTrain pre).followOutputs.followDisagreement.followProven.stances =
        { r.stances with disagreement := d } ∧
      d = if (r.followSecondTrain pre).followOutputs.followDisagreement.followProven.disagreeing then
        some (r.stances.disagreement.getD
          ⟨(r.followSecondTrain pre).followOutputs.followDisagreement.followProven.now, false⟩) else none := by
  have hx : Still r (r.followSecondTrain pre).followOutputs ∧
      (r.followSecondTrain pre).followOutputs.stances = r.stances := by
    unfold followSecondTrain followOutputs
    constructor
    all_goals split <;> split <;> first | exact ⟨fun _ => rfl, rfl, rfl, rfl, rfl, rfl, rfl, rfl⟩ | rfl
  generalize (r.followSecondTrain pre).followOutputs = x at hx
  obtain ⟨hs, hv⟩ := hx
  refine ⟨hs.trans ⟨fun _ => rfl, rfl, rfl, rfl, rfl, rfl, rfl, rfl⟩,
    if x.disagreeing then some (x.stances.disagreement.getD ⟨x.now, false⟩) else none, ?_, ?_⟩
  · show ({ x.stances with
      disagreement := if x.disagreeing then some (x.stances.disagreement.getD ⟨x.now, false⟩) else none } : Stances) = _
    rw [hv]
  · rw [hv]; rfl

/-- The end of an event, from the sequencer's transition on, leaves slots, the sequencer's place and the fault table; of the
stances it sets the disagreement supervision alone. -/
theorem finish_does (pre s r : State) (b : Bool)
    (hr : s.handApproach.handOutputs.react (s.handApproach.approach.demand && !pre.approach.demand) = r) :
    Still r (finish pre s b) ∧ ∃ d, (finish pre s b).stances = { r.stances with disagreement := d } ∧
      d = if (finish pre s b).disagreeing then some (r.stances.disagreement.getD ⟨(finish pre s b).now, false⟩)
        else none := by
  obtain ⟨h1, d, h2, h3⟩ := middleStages_do pre r
  have hy : (r.followSecondTrain pre).followOutputs.followDisagreement.followProven = s.handRound pre := by
    rw [← hr]; rfl
  rw [hy] at h1 h2 h3
  obtain ⟨g, q, n, v, h⟩ := lastStages_do pre (s.handRound pre) (b || (s.handRound pre).recordsChanged pre)
    ((((s.handRound pre).advanceGeneration (b || (s.handRound pre).recordsChanged pre)).followStatus pre).seq.state !=
      pre.seq.state)
  have hf : finish pre s b = _ := h
  clear h
  generalize finish pre s b = t at hf ⊢
  generalize s.handRound pre = y at *
  refine ⟨h1.trans ?_, d, ?_, ?_⟩
  · rw [hf]; exact ⟨fun _ => rfl, rfl, rfl, rfl, rfl, rfl, rfl, rfl⟩
  · rw [hf]; exact h2
  · have e1 : t.disagreeing = y.disagreeing := by rw [hf]; rfl
    have e2 : t.now = y.now := by rw [hf]; rfl
    rw [e1, e2]; exact h3

/-- The hands of the approach timer and of the outputs, taken together, before the sequencer's transition. -/
theorem handed_does (s : State) :
    (∀ k, s.handApproach.handOutputs.slot k = s.slot k) ∧
    s.handApproach.handOutputs.seq.state = s.seq.state ∧ s.handApproach.handOutputs.seq.closure = s.seq.closure ∧
    s.handApproach.handOutputs.seq.redStart = s.seq.redStart ∧ s.handApproach.handOutputs.faults = s.faults ∧
    s.handApproach.handOutputs.now = s.now ∧
    s.handApproach.handOutputs.stances =
      if !s.approach.demand && s.handApproach.handOutputs.approach.demand then s.stances.dropConsents
      else s.stances := by
  obtain ⟨a1, a2, a3, a4, a5⟩ := handApproach_does s
  have e : ∀ x : State, x.handOutputs.seq.state = x.seq.state ∧ x.handOutputs.seq.closure = x.seq.closure ∧
    x.handOutputs.seq.redStart = x.seq.redStart := fun _ => ⟨rfl, rfl, rfl⟩
  exact ⟨a1, (e _).1.trans (by rw [a2]), (e _).2.1.trans (by rw [a2]), (e _).2.2.trans (by rw [a2]), a3,
    congrArg clockAt a4, a5⟩

/-- A stance of a lane after the approach timer's hands. -/
theorem dropIf_lane (v : Stances) (c : Bool) (l : Lane) :
    (if c then v.dropConsents else v).lane l = if c then { v.lane l with consent := none } else v.lane l := by
  cases c <;> cases l <;> rfl

/-- What the approach timer's hands leave of the stances beside the consents. -/
theorem dropIf_rest (v : Stances) (c : Bool) : ∃ a b, (if c then v.dropConsents else v) = { v with laneA := a, laneB := b } := by
  cases c
  · exact ⟨v.laneA, v.laneB, rfl⟩
  · exact ⟨_, _, rfl⟩

theorem clearDisagree_unit (s : State) : s.clearDisagree.faults = if s.mon.mode ≠ .starting then
    (s.faults.clear s.seconds .laneDisagree (.lane .a)).clear s.seconds .laneDisagree (.lane .b) else s.faults := by
  unfold clearDisagree clear
  by_cases h : s.mon.mode = .starting
  · simp [h]
  · simp only [h, ne_eq, not_false_eq_true, if_true, if_false]
    exact congrArg State.faults (if_neg h)

/-- The fault unit after an entry into a state: LANE-DISAGREE is cleared of both lanes where the closure number changes or the
sequencer begins RAISING, but in STARTING (R94). -/
theorem enterState_unit (s : State) (st : SeqState) : (s.enterState st).faults =
    if (newClosure s.seq.state st || st == .raising) = true ∧ s.mon.mode ≠ .starting then
      (s.faults.clear s.seconds .laneDisagree (.lane .a)).clear s.seconds .laneDisagree (.lane .b)
    else s.faults := by
  cases h : newClosure s.seq.state st || st == .raising
  · rw [enterState_faults s st h, if_neg (by simp)]
  · unfold enterState
    extract_lets old s1 s2 s3 s4
    have h2 : s2.faults = s.faults ∧ s2.mon = s.mon ∧ s2.seconds = s.seconds := by unfold s2; split <;> exact ⟨rfl, rfl, rfl⟩
    have h3 : s3 = s2.clearDisagree := by unfold s3; exact if_pos h
    have e : (if setsRedStart old.state st then s4.warnFrom s4.now else s4).faults = s3.faults := by split <;> rfl
    rw [e, h3, clearDisagree_unit, h2.1, h2.2.1, h2.2.2]
    simp

/-- The fault unit at the end of an event is that of the sequencer's reaction, with a CROSSING-STATUS where one is queued. -/
theorem finish_unit (pre s r : State) (b : Bool)
    (hr : s.handApproach.handOutputs.react (s.handApproach.approach.demand && !pre.approach.demand) = r) :
    (finish pre s b).faults = r.faults ∨
    (finish pre s b).faults = r.faults.queueStatus ((finish pre s b).statusNotice none) := by
  have hy : (s.handRound pre).faults = r.faults := by
    have h : s.handRound pre = (r.followSecondTrain pre).followOutputs.followDisagreement.followProven := by rw [← hr]; rfl
    rw [h]
    show (r.followSecondTrain pre).followOutputs.faults = _
    unfold followSecondTrain followOutputs
    split <;> split <;> rfl
  unfold finish
  extract_lets y c g
  have hg : (y.advanceGeneration c).faults = r.faults := by rw [← hy]; unfold advanceGeneration; split <;> rfl
  clear_value y c
  show g.faults = _ ∨ g.faults = r.faults.queueStatus (g.statusNotice none)
  unfold g
  generalize y.advanceGeneration c = z at hg
  unfold followStatus
  split
  · exact .inr (by rw [← hg]; rfl)
  · exact .inl hg

theorem seconds_eq {s t : State} (h : t.uptime = s.uptime) : t.seconds = s.seconds := by unfold seconds; rw [h]

/-- The frame of the end of an event. -/
theorem finish_frame (pre s : State) (b : Bool) : EventFrame s (finish pre s b) := by
  obtain ⟨hs, d, hv, hd⟩ := finish_does pre s _ b rfl
  have hun := finish_unit pre s _ b rfl
  have hx : s.handApproach.handOutputs.mon = s.mon ∧ s.handApproach.handOutputs.seconds = s.seconds := by
    have h := (handApproach_frame s).trans (handOutputs_frame _)
    exact ⟨h.2.2.2.2.1, seconds_eq h.1⟩
  obtain ⟨h1, h2, h3, h4, h5, h6, h7, h8, h9, h10, h11⟩ := finish_hand pre s b
  obtain ⟨x1, x2, x3, x4, x5, x6, x7⟩ := handed_does s
  generalize (s.handApproach.approach.demand && !pre.approach.demand) = b' at hs hv hd hun
  generalize s.handApproach.handOutputs = x at *
  generalize finish pre s b = t at *
  obtain ⟨ua, ub, hu⟩ := dropIf_rest s.stances (!s.approach.demand && x.approach.demand)
  have hul := dropIf_lane s.stances (!s.approach.demand && x.approach.demand)
  rw [← x7] at hu hul
  obtain ⟨s1, s2, s3, s4, s5, s6, s7, s8⟩ := hs
  have hn : t.now = s.now := congrArg clockAt h1
  rcases react_cases x b' with hr | ⟨c, st, hne, hr⟩ <;> rw [hr] at s1 s2 s3 s4 s5 s6 s7 s8 hv hd hun
  · have hst : t.seq.state = s.seq.state := s2.trans x2
    have hcl : t.seq.closure = s.seq.closure := s3.trans x3
    have hred : redStartSet s t = false := by unfold redStartSet; rw [hst]; cases s.seq.state <;> rfl
    have hdis : consentsDropped s t = (!s.approach.demand && x.approach.demand) := by
      unfold consentsDropped; rw [hst, hcl, s5]; cases s.seq.state <;> simp
    have hfol : faultsFollowed s t = s.faults := by
      have h : disagreeCleared s t = false := by unfold disagreeCleared; rw [hst, hcl]; cases s.seq.state <;> simp
      unfold faultsFollowed; rw [h]; simp
    refine ⟨h1, h2, h3, h4, h5, h6, h7, fun k => ?_, ⟨fun l => ?_, ?_, ?_, ?_, ?_, .inr ?_⟩, h8,
      ⟨by rw [hfol]; rw [x5] at hun; exact hun, h9.1, h9.2.1, h9.2.2.1, h9.2.2.2, fun _ => ⟨?_, ?_, ?_⟩⟩, h10, h11⟩
    · unfold SlotFrame; rw [hred, s1, x1]; simp
    · rw [hdis]; show t.stances.lane l = _; rw [hv]; exact Eq.trans (by cases l <;> rfl) (hul l)
    all_goals first
      | (rw [hv, hu]; done)
      | (rw [hv]; exact hd.trans (by rw [hu]))
      | (rw [s6, x5])
      | (rw [s7, x5])
      | (rw [s8, x5])
  · have e1 := enterState_seq (x.onSeq fun q => { q with causes := c }) st
    have e2 := enterState_slot (x.onSeq fun q => { q with causes := c }) st
    have e3 := enterState_lane (x.onSeq fun q => { q with causes := c }) st
    have e4 := enterState_rest (x.onSeq fun q => { q with causes := c }) st
    have e5 := enterState_faults (x.onSeq fun q => { q with causes := c }) st
    have e6 := enterState_unit (x.onSeq fun q => { q with causes := c }) st
    generalize (x.onSeq fun q => { q with causes := c }).enterState st = e at *
    have q1 : e.seq.state = st := by rw [e1]; rfl
    have q2 : e.seq.closure = if newClosure s.seq.state st then s.seq.closure + 1 else s.seq.closure := by
      rw [e1, ← x2, ← x3]; rfl
    have q3 : setsRedStart s.seq.state st = true → e.seq.redStart = some s.now := by
      rw [e1, ← x2, ← x6]; intro h
      show (if st = .open then none else if setsRedStart x.seq.state st then some x.now else x.seq.redStart) = _
      rw [if_pos h, if_neg]; rintro rfl; revert h; cases x.seq.state <;> simp [setsRedStart]
    have hst : t.seq.state = st := s2.trans q1
    have hcl : (t.seq.closure != s.seq.closure) = newClosure s.seq.state st := by
      rw [s3, q2]; cases newClosure s.seq.state st
      · simp
      · simp
    have hne' : s.seq.state ≠ st := fun h => hne (x2.trans h)
    have hred : redStartSet s t = setsRedStart s.seq.state st := by
      unfold redStartSet; rw [hst]; revert hne'; cases s.seq.state <;> cases st <;> simp [setsRedStart]
    have hdem : t.approach.demand = x.approach.demand := by rw [s5, e4.1]; rfl
    have hcon : consentsDropped s t = ((!s.approach.demand && x.approach.demand) ||
        (newClosure s.seq.state st || s.seq.state == .closed)) := by
      have hc : (s.seq.state == .closed && st != .closed) = (s.seq.state == .closed) := by
        revert hne'; cases s.seq.state <;> cases st <;> simp
      unfold consentsDropped; rw [hcl, hdem, hst, hc, Bool.or_assoc, Bool.or_comm (s.seq.state == .closed)]
    have hdis : disagreeCleared s t = (newClosure s.seq.state st || st == .raising) := by
      have hc : (s.seq.state != .raising && st == .raising) = (st == .raising) := by
        revert hne'; cases s.seq.state <;> cases st <;> simp
      unfold disagreeCleared; rw [hcl, hst, hc]
    have hfol : e.faults = faultsFollowed s t := by
      have hsec : t.seconds = s.seconds := seconds_eq h1
      unfold faultsFollowed
      rw [hdis, h5, hsec, ← x2, ← hx.1, ← hx.2, ← x5]
      exact e6
    refine ⟨h1, h2, h3, h4, h5, h6, h7, fun k => ?_, ⟨fun l => ?_, ?_, ?_, ?_, ?_, .inr ?_⟩, h8,
      ⟨by rw [← hfol]; exact hun, h9.1, h9.2.1, h9.2.2.1, h9.2.2.2, fun h => ?_⟩, h10, h11⟩
    · unfold SlotFrame
      rw [hred, s1, e2]
      show (x.slot k).map (fun m => if setsRedStart x.seq.state st && m.demanding && m.warnedAt.isNone
        then { m with warnedAt := some x.now } else m) = _
      rw [x1, x2, x6, s4]
      cases hk : setsRedStart s.seq.state st
      · simp
      · rw [q3 hk]
    · rw [hcon]
      show t.stances.lane l = _
      rw [hv]
      have e3' : e.lane l = if newClosure s.seq.state st || s.seq.state == .closed then
          { x.lane l with consent := none } else x.lane l := by rw [e3, ← x2]; rfl
      have hx : x.lane l = if !s.approach.demand && x.approach.demand then { s.lane l with consent := none }
          else s.lane l := hul l
      rw [hx] at e3'
      refine Eq.trans (b := e.lane l) (by cases l <;> rfl) (e3'.trans ?_)
      cases newClosure s.seq.state st || s.seq.state == .closed <;>
        cases !s.approach.demand && x.approach.demand <;> rfl
    · rw [hv]; show e.stances.signallerHold = _; rw [e4.2.2.1]; show x.stances.signallerHold = _; rw [hu]
    · rw [hv]; show e.stances.serviceHold = _; rw [e4.2.2.2.1]; show x.stances.serviceHold = _; rw [hu]
    · rw [hv]; show e.stances.permit = _; rw [e4.2.2.2.2.1]; show x.stances.permit = _; rw [hu]
    · rw [hv]; show e.stances.maintenance = _; rw [e4.2.2.2.2.2]; show x.stances.maintenance = _; rw [hu]
    · rw [hv]
      show d = _
      rw [hd, e4.2.1]
      show (if t.disagreeing = true then some (x.stances.disagreement.getD _) else none) = _
      rw [hu]
    · rw [hdis] at h
      have hf : e.faults = s.faults := (e5 (by rw [← x2] at h; exact h)).trans x5
      exact ⟨by rw [s6, hf], by rw [s7, hf], by rw [s8, hf]⟩

/-- An event whose effect leaves `m` answers `m` but for the end of the event. -/
theorem event_frame {f : State → Option State} {s m : State} {dt : Nat} (hh : s.mon.held = false)
    (hf : f (s.advance dt) = some m) : EventFrame m (s.event dt f) := by
  unfold event
  simp only [hh, hf, Bool.false_eq_true, if_false]
  exact finish_frame _ _ _

end State

/-! ## The cause set -/

theorem Booms.anyStopped_iff (v : Booms) : v.anyStopped = true ↔ ∃ i, (v.get i).state = .stopped := by
  constructor
  · intro h
    simp only [Booms.anyStopped, Booms.all, Bool.not_eq_true', Bool.and_eq_false_iff, bne_eq_false_iff_eq] at h
    rcases h with ((h | h) | h) | h
    · exact ⟨.entry1, h⟩
    · exact ⟨.exit1, h⟩
    · exact ⟨.entry2, h⟩
    · exact ⟨.exit2, h⟩
  · rintro ⟨i, h⟩
    simp only [Booms.anyStopped, Booms.all, Bool.not_eq_true', Bool.and_eq_false_iff, bne_eq_false_iff_eq]
    cases i
    · exact .inl (.inl (.inl h))
    · exact .inl (.inl (.inr h))
    · exact .inl (.inr h)
    · exact .inr h

/-- The end of an event stops no boom and starts none that is STOPPED, and leaves the major lamp condition. -/
theorem OutFrame.conditions {o q : Outputs} (h : OutFrame o q) :
    q.booms.anyStopped = o.booms.anyStopped ∧ q.lamps.major = o.lamps.major := by
  obtain ⟨-, -, hb, hl, -⟩ := h
  constructor
  · rw [Bool.eq_iff_iff, Booms.anyStopped_iff, Booms.anyStopped_iff]
    exact exists_congr fun i => (hb i).2.2.2.2.2
  · have hf : ∀ c, (q.lamps.get c).failed = (o.lamps.get c).failed := fun c => by unfold Lamp.failed; rw [(hl c).1]
    have hs : ∀ c, (q.lamps.get c).stray = (o.lamps.get c).stray := fun c => (hl c).2.1
    unfold Lamps.major
    rw [show q.lamps.redLeft1.failed = _ from hf .redLeft1, show q.lamps.redRight1.failed = _ from hf .redRight1,
      show q.lamps.redLeft2.failed = _ from hf .redLeft2, show q.lamps.redRight2.failed = _ from hf .redRight2]
    simp only [hs]
    rfl

theorem Booms.allDown_iff (v : Booms) : v.allDown = true ↔ ∀ i, (v.get i).state = .down := by
  simp only [Booms.allDown, Booms.all, Bool.and_eq_true, beq_iff_eq]
  exact ⟨fun h i => by obtain ⟨⟨⟨a, b⟩, c⟩, d⟩ := h; cases i <;> assumption,
    fun h => ⟨⟨⟨h .entry1, h .exit1⟩, h .entry2⟩, h .exit2⟩⟩

/-- An entry into FAILED-CLOSED leaves booms that are DOWN where they are. -/
theorem State.enterFailed_down {s : State} (h : s.out.booms.allDown = true) :
    (s.enterState .failedClosed).out.booms.allDown = true := by
  rw [Booms.allDown_iff] at h ⊢
  unfold State.enterState
  extract_lets old s1 s2 s3 s4
  have h1 : s1.out = s.out := rfl
  have h2 : s2.out = s1.out := by unfold s2; split <;> rfl
  have h3 : s3.out = s2.out := by
    unfold s3; split
    · obtain ⟨_, _, h⟩ := clearDisagree_only s2; rw [h]
    · rfl
  have hq : s3.seq.state = .failedClosed := by
    have e2 : s2.seq = s1.seq := by unfold s2; split <;> rfl
    have e3 : s3.seq = s2.seq := by
      unfold s3; split
      · obtain ⟨_, _, h⟩ := clearDisagree_only s2; rw [h]
      · rfl
    rw [e3, e2]; rfl
  have ho : s3.out = s.out := (h3.trans h2).trans h1
  clear_value s3
  intro i
  have h4 : ((if setsRedStart old.state .failedClosed then s4.warnFrom s4.now else s4).out.booms.get i).state = .down := by
    have e : (if setsRedStart old.state .failedClosed then s4.warnFrom s4.now else s4).out = s4.out := by split <;> rfl
    rw [e]
    show ((Booms.build _).get i).state = _
    rw [Booms.get_build]
    have hb : ((s3.onOut fun o => o.pulseOn .failedClosed s3.now).out.booms.get i).state = .down := by
      show (s3.out.booms.get i).state = _
      rw [ho]; exact h i
    have hs : (s3.onOut fun o => o.pulseOn .failedClosed s3.now).seq.state = .failedClosed := hq
    generalize (s3.onOut fun o => o.pulseOn .failedClosed s3.now) = x at hb hs
    dsimp only
    split
    · exact hb
    · rw [hs]
      unfold Boom.takeOrder
      split
      · exact hb
      · simp only [hb, SeqState.order]
  exact h4

/-- The sequencer's transition leaves the cause set, but that LAMP enters it at the end of a closing with the major lamp
condition present (R116). -/
theorem State.react_causes (s : State) (b : Bool) :
    (s.react b).seq.causes = s.seq.causes ∨
    (s.out.major = true ∧ (s.react b).out.booms.allDown = true ∧
      (s.seq.state = .exitLowering ∨ s.seq.state = .reclosing) ∧
      (s.react b).seq.causes = { s.seq.causes with lamp := true }) := by
  have enters : ∀ (s : State) st, (s.enterState st).seq.causes = s.seq.causes := fun s st => by rw [s.enterState_seq]; rfl
  have closing : s.out.booms.allDown = true → (s.seq.state = .exitLowering ∨ s.seq.state = .reclosing) →
      s.endClosing.seq.causes = s.seq.causes ∨ (s.out.major = true ∧ s.endClosing.out.booms.allDown = true ∧
        (s.seq.state = .exitLowering ∨ s.seq.state = .reclosing) ∧
        s.endClosing.seq.causes = { s.seq.causes with lamp := true }) := by
    intro hd hs
    unfold State.endClosing
    split
    · next h => exact .inr ⟨h, State.enterFailed_down hd, hs, by rw [enters]; rfl⟩
    · exact .inl (enters _ _)
  unfold State.react
  split
  · exact .inl (enters _ _)
  · split
    all_goals
      next h => first
        | exact .inl rfl
        | (split
           · next hd => first
             | exact .inl (enters _ _)
             | exact closing hd (by simp [h])
           · first
             | exact .inl rfl
             | (split <;> first | exact .inl rfl | exact .inl (enters _ _)))

/-- The approach timer's hands leave the major lamp condition as handed. -/
theorem State.handApproach_major (s : State) : s.handApproach.out.major = s.out.major := by
  have hb : ∀ s : State, s.endBoomTests.out.major = s.out.major := fun s =>
    foldl_run (R := fun a b : State => b.out.major = a.out.major) (fun _ => rfl) (fun h h' => h'.trans h) _
      (fun s i => by unfold State.endBoomTest; extract_lets b; split <;> rfl) _ s
  unfold State.handApproach
  extract_lets old s1 s2
  have h2 : s2.out = s.out := by unfold s2; split <;> rfl
  split
  · rw [hb, h2]
  · rw [h2]

/-- The cause set as the hands of the outputs form it. -/
theorem State.handOutputs_causes (s : State) : s.handOutputs.seq.causes =
    { boom := s.out.booms.anyStopped
      lamp := s.out.lamps.major && (s.seq.causes.lamp || ((s.out.lamps.major && !s.out.major) && s.seq.state != .open))
      start := s.seq.causes.start && s.mon.mode != .normal
      config := s.seq.causes.config && (s.mon.mode == .unconfigured || s.seq.configMark) } := rfl

/-- The end of an event, from the sequencer's transition on, leaves the cause set and the booms. -/
theorem State.afterReact_causes (pre s : State) (b : Bool) (r : State)
    (hr : s.handApproach.handOutputs.react (s.handApproach.approach.demand && !pre.approach.demand) = r) :
    (finish pre s b).seq.causes = r.seq.causes ∧ (finish pre s b).out.booms = r.out.booms := by
  obtain ⟨g, q, n, v, h⟩ := lastStages_do pre (s.handRound pre) (b || (s.handRound pre).recordsChanged pre)
    ((((s.handRound pre).advanceGeneration (b || (s.handRound pre).recordsChanged pre)).followStatus pre).seq.state !=
      pre.seq.state)
  have hf : finish pre s b = _ := h
  clear h
  have hy : s.handRound pre = (r.followSecondTrain pre).followOutputs.followDisagreement.followProven := by rw [← hr]; rfl
  have hm : (r.followSecondTrain pre).followOutputs.seq.causes = r.seq.causes ∧
      (r.followSecondTrain pre).followOutputs.out.booms = r.out.booms := by
    have hd : ∀ (o : Outputs) st t n, (o.driveLamps st t n).booms = o.booms := by
      intro o st t n; unfold Outputs.driveLamps Outputs.beginPhase; dsimp only; split <;> rfl
    have ho : ∀ x : State, x.followOutputs.seq = x.seq ∧ x.followOutputs.out.booms = x.out.booms := by
      intro x; unfold State.followOutputs; split
      · exact ⟨rfl, hd _ _ _ _⟩
      · exact ⟨rfl, rfl⟩
    rw [(ho _).1, (ho _).2]
    unfold State.followSecondTrain
    split <;> exact ⟨rfl, rfl⟩
  rw [hf, hy]
  exact hm

/-- The cause set after the end of an event whose own effect has left `s` (R115, R116): BOOM exactly while a boom is STOPPED;
LAMP only with the major lamp condition present, and then if it was in the set, or the condition appeared in the event in a
state other than OPEN, or the event ended a closing; START until the mode is NORMAL; CONFIG as the mode and the mark say. -/
theorem State.finish_causes (pre s : State) (b : Bool) : ∃ closing : Bool,
    (closing = true → s.out.lamps.major = true ∧ (finish pre s b).out.booms.allDown = true ∧
      (s.seq.state = .exitLowering ∨ s.seq.state = .reclosing)) ∧
    (finish pre s b).seq.causes =
      { boom := s.out.booms.anyStopped
        lamp := closing || (s.out.lamps.major && (s.seq.causes.lamp || (!s.out.major && s.seq.state != .open)))
        start := s.seq.causes.start && s.mon.mode != .normal
        config := s.seq.causes.config && (s.mon.mode == .unconfigured || s.seq.configMark) } := by
  let x := s.handApproach.handOutputs
  let b' := s.handApproach.approach.demand && !pre.approach.demand
  have hx : s.handApproach.seq = s.seq := (s.handApproach_does).2.1
  have hf := s.handApproach_frame
  have hm : s.handApproach.mon = s.mon := hf.2.2.2.2.1
  have hc := hf.2.2.2.2.2.2.2.1.conditions
  have hmaj : s.handApproach.out.major = s.out.major := s.handApproach_major
  have hxc : x.seq.causes =
      { boom := s.out.booms.anyStopped
        lamp := s.out.lamps.major && (s.seq.causes.lamp || (!s.out.major && s.seq.state != .open))
        start := s.seq.causes.start && s.mon.mode != .normal
        config := s.seq.causes.config && (s.mon.mode == .unconfigured || s.seq.configMark) } := by
    refine (State.handOutputs_causes _).trans ?_
    rw [hx, hm, hc.1, hc.2, hmaj]
    cases s.out.lamps.major <;> simp
  have hxs : x.seq.state = s.seq.state := (show x.seq.state = s.handApproach.seq.state from rfl).trans (by rw [hx])
  have hxm : x.out.major = s.out.lamps.major := hc.2
  obtain ⟨ht, hb⟩ := State.afterReact_causes pre s b (x.react b') rfl
  rw [ht, hb]
  rcases x.react_causes b' with h | ⟨h1, h2, h3, h4⟩
  · exact ⟨false, by simp, by rw [h, hxc]; rfl⟩
  · refine ⟨true, fun _ => ⟨hxm ▸ h1, h2, hxs ▸ h3⟩, by rw [h4, hxc]; rfl⟩

end Sys2Proof.Machine
end

