-- ==== Sys2Proof/Laws/Layouts.lean ====
section
/-!
SUPPORT. The octets that the operations build are the layouts of R181 as Safety states them: numbers and flags, notices, read
items, STATUS, entries, windows and frames.
-/
namespace Sys2Proof.Machine

/-! ## Numbers, flags and references -/

theorem big_one (n : Nat) : big 1 n = [octet n] := by simp [big, octet]

theorem big_two (n : Nat) : big 2 n = half' n := by
  simp only [big, half', half, List.range_succ, List.range_zero, List.nil_append, List.reverse_cons, List.reverse_nil,
    List.map_cons, List.map_nil, List.cons_append]
  congr 1
  · apply BitVec.eq_of_toNat_eq
    simp [BitVec.extractLsb'_toNat]
    omega
  · congr 1
    apply BitVec.eq_of_toNat_eq
    simp [BitVec.extractLsb'_toNat]

theorem big_two_toNat (n : Half) : big 2 n.toNat = half n := by simp [big_two, half']

theorem big_four_toNat (n : BitVec 32) : big 4 n.toNat = word n := by
  simp only [big, word, List.range_succ, List.range_zero, List.nil_append, List.reverse_cons, List.reverse_nil,
    List.map_cons, List.map_nil, List.cons_append]
  repeat
    congr 1
    apply BitVec.eq_of_toNat_eq
    simp [BitVec.extractLsb'_toNat, Nat.shiftRight_eq_div_pow]

theorem big_length (k n : Nat) : (big k n).length = k := by simp [big]

theorem bigTime_eq (t : Option Time) : bigTime t = timeOctets t := by
  cases t with
  | none => decide
  | some v => exact big_four_toNat v

theorem flagged_eq (l : List Bool) : flagged l = octet (flags l) := by
  have shift : ∀ (l : List Bool) (k : Nat),
      (l.mapIdx fun i b => if b = true then 2 ^ (i + k) else 0).sum = 2 ^ k * flags l := by
    intro l
    induction l with
    | nil => simp [flags]
    | cons b l ih =>
      intro k
      have tail : (l.mapIdx fun i b => if b = true then 2 ^ (i + 1 + k) else 0).sum = 2 ^ (k + 1) * flags l := by
        simpa only [Nat.add_assoc, Nat.add_comm 1 k] using ih (k + 1)
      rw [List.mapIdx_cons, List.sum_cons, tail, flags, Nat.mul_add, Nat.pow_succ, Nat.mul_assoc]
      cases b <;> simp
  have := shift l 0
  simp only [Nat.add_zero, Nat.pow_zero, Nat.one_mul] at this
  simp [flagged, octet, this]

theorem flagged_one (b : Bool) : flagged [b] = octet (flag b) := by cases b <;> rfl

theorem headRef_eq (h : Option HeadId) : headRef h = [headCode h] := by
  cases h with
  | none => rfl
  | some v => exact big_one v.val

/-! ## Codes -/

theorem coded_seqStates (st : SeqState) : coded seqStates st = octet st.code := by cases st <;> decide

theorem coded_modes (m : Mode) : coded modeCodes m = octet m.code := by cases m <;> decide

theorem coded_supply (v : SupplyState) : coded supplyCodes v = octet v.code := by cases v <;> decide

theorem coded_reset (k : Option ResetKind) : coded resetCodes k = octet (resetCode k) := by
  rcases k with _ | k
  · decide
  · cases k <;> decide

theorem coded_severity (v : Severity) : coded [.minor, .major, .critical] v = octet v.code := by cases v <;> decide

theorem coded_class (c : FaultClass) : coded faultClasses c = octet c.code := by cases c <;> decide

theorem coded_faultState (v : Option FaultState) : coded faultStateCodes v = octet ((v.map FaultState.code).getD 0) := by
  rcases v with _ | v
  · decide
  · cases v <;> decide

theorem kindLayout_eq (k : FaultKind) : kindLayout k = octet k.code := by cases k <;> decide

theorem subjectLayout_eq (x : Subject) : subjectLayout x = x.octets := by
  cases x with
  | head h => simp [subjectLayout, Subject.octets, big_one]
  | sect h => simp [subjectLayout, Subject.octets, big_one]
  | movement n => simp [subjectLayout, Subject.octets, big_one]
  | boom i => cases i <;> decide
  | lamp c => cases c <;> decide
  | lane l => cases l <;> decide
  | supply => rfl
  | audible => rfl
  | configuration => rfl
  | faultTable => rfl

/-! ## Notices -/

theorem noticeLayout_eq (n : Notice) : noticeLayout n = n.octets := by
  cases n with
  | faultRaised id k x sev t =>
    simp [noticeLayout, Notice.octets, big_one, big_four_toNat, kindLayout_eq, subjectLayout_eq, coded_severity]
  | faultCleared id t => simp [noticeLayout, Notice.octets, big_one, big_four_toNat]
  | crossingStatus st =>
    rcases st with ⟨a, b, c, d, e, f, g, h, cause⟩
    rcases cause with _ | ⟨k, p⟩ <;>
      simp [noticeLayout, Notice.octets, big_two_toNat, big_four_toNat, coded_seqStates, coded_modes, coded_supply,
        coded_reset, flagged_one]
  | movementPassed number track dir axles speed t =>
    have first : (5#4 ++ BitVec.ofNat 2 track.val ++ BitVec.ofBool (dir == .ba) ++
        (BitVec.ofNat 9 (speed.getD 0)).extractLsb' 8 1 : Octet) =
        octet (0x50 + track.val * 4 + dir.code * 2 + (speed.getD 0) / 256 % 2) := by
      have high : (BitVec.ofNat 9 (speed.getD 0)).extractLsb' 8 1 = BitVec.ofNat 1 (speed.getD 0 / 256 % 2) := by
        apply BitVec.eq_of_toNat_eq
        simp [BitVec.extractLsb'_toNat, Nat.shiftRight_eq_div_pow]
        omega
      have two : speed.getD 0 / 256 % 2 < 2 := Nat.mod_lt _ (by decide)
      rw [high]
      generalize speed.getD 0 / 256 % 2 = b at two ⊢
      have all : ∀ (x : TrackId) (d : Dir) (b : Fin 2),
          (5#4 ++ BitVec.ofNat 2 x.val ++ BitVec.ofBool (d == .ba) ++ BitVec.ofNat 1 b.val : Octet) =
            octet (0x50 + x.val * 4 + d.code * 2 + b.val) := by
        intro x d b
        cases d <;> revert x b <;> decide
      exact all track dir ⟨b, two⟩
    have low : (BitVec.ofNat 9 (speed.getD 0)).extractLsb' 0 8 = octet (speed.getD 0) := by
      apply BitVec.eq_of_toNat_eq
      simp [BitVec.extractLsb'_toNat, octet]
    simp only [noticeLayout, Notice.octets, big_one, big_four_toNat, first, low, List.cons_append, List.nil_append]
  | restored x track k =>
    have kind : coded [.sweep, .direct] k = octet k.code := by cases k <;> decide
    simp [noticeLayout, Notice.octets, big_one, kind]

/-! ## Read items -/

theorem passageLayout_eq (p : Option HeadTime) : passageLayout p = headTimeOctets p := by
  simp [passageLayout, headTimeOctets, headRef_eq, bigTime_eq]

theorem movementLayout_eq (m : Option Movement) : movementLayout m = movementItem m := by
  cases m with
  | none => rfl
  | some m =>
    have track : (BitVec.ofNat 4 (m.track.val + 1) ++ BitVec.ofNat 4 (coded [.ab, .ba] m.dir).toNat : Octet) =
        octet ((m.track.val + 1) * 16 + m.dir.code) := by
      have all : ∀ (x : TrackId) (d : Dir), (BitVec.ofNat 4 (x.val + 1) ++ BitVec.ofNat 4 (coded [.ab, .ba] d).toNat : Octet) =
          octet ((x.val + 1) * 16 + d.code) := by
        intro x d
        cases d <;> revert x <;> decide
      exact all m.track m.dir
    have state : coded [.arriving, .due, .standing, .crossing, .leaving] m.state = octet m.state.code := by
      cases m.state <;> decide
    have origin : coded [.outer, .fromDisturbed, .reversedHere] m.origin = octet m.origin.code := by
      cases m.origin <;> decide
    simp only [movementLayout, movementItem, big_one, big_two, bigTime_eq, big_four_toNat, passageLayout_eq, track, state, origin,
      flagged_eq, Movement.flags, Movement.totalAxles, spanOctets, List.cons_append, List.nil_append, List.append_assoc]
    all_goals rfl

theorem sectionLayout_eq (s : State) (x : SectionId) : sectionLayout s x = s.sectionItem x := by
  unfold sectionLayout State.sectionItem
  generalize s.sect x = r
  have role : coded [none, some .island, some (.approach .a), some (.approach .b)] (r.place.map Place.role) =
      octet (roleCode r.place) := by
    rcases r.place with _ | ⟨t, role, a, b⟩
    · rfl
    · rcases role with _ | side
      · rfl
      · cases side <;> rfl
  have state : coded [.clear, .occupied, .disturbed, .restoring] r.state = octet r.state.code := by cases r.state <;> decide
  have cause : coded [none, some .start, some .headFailed, some .underflow, some .overflow, some .listFull, some .tableFull,
      some .config] r.cause = octet (causeCode r.cause) := by
    rcases r.cause with _ | c
    · decide
    · cases c <;> decide
  have restore : (if r.restore = none then 0 else coded [none, some .a, some .b] r.sweepEnd + 1) = octet (restoreCode r) := by
    unfold restoreCode
    rcases r.restore with _ | k
    · rfl
    · rcases r.sweepEnd with _ | e
      · rfl
      · cases e <;> rfl
  have entry : ∀ i, big 1 (((r.list[i]?.bind fun k => s.slot k).map Movement.number).getD 0) = [s.listNumber r.list i] := by
    intro i
    rw [big_one]
    unfold State.listNumber
    cases r.list[i]? with
    | none => rfl
    | some k => cases h : s.slot k <;> simp [h, octet]
  simp only [role, state, cause, restore, entry, big_one, headRef_eq]
  rfl

theorem headLayout_eq (r : Head) : headLayout r = headItem r := by
  have condition : coded [none, some .sensorStuck, some .sensorImbalance] r.failure = octet (conditionCode r.failure) := by
    rcases r.failure with _ | k
    · decide
    · cases k <;> decide
  have decoder : coded [.settling, .quiet, .entering, .spanned, .leaving] r.decoder = octet r.decoder.code := by
    cases r.decoder <;> decide
  have sides : (BitVec.ofNat 4 (coded [none, some .a, some .b] r.entrySide).toNat ++
      BitVec.ofNat 4 (coded [none, some .a, some .b] r.heldSide).toNat : Octet) =
      octet (sideCode r.entrySide * 16 + sideCode r.heldSide) := by
    rcases r.entrySide with _ | x <;> rcases r.heldSide with _ | y
    · decide
    · cases y <;> decide
    · cases x <;> decide
    · cases x <;> cases y <;> decide
  have sensor : ∀ v : Sensor, sensorLayout v = sensorOctets v := by
    intro v
    unfold sensorLayout sensorOctets
    rw [big_four_toNat]
    cases v.occupied <;> rfl
  have last : lastLayout r.lastPassage = lastPassageOctets r.lastPassage := by
    rcases r.lastPassage with _ | p
    · rfl
    · have dir : coded [.ab, .ba] p.dir = octet p.dir.code := by cases p.dir <;> decide
      simp [lastLayout, lastPassageOctets, big_two, big_four_toNat, dir]
  simp only [headLayout, headItem, condition, decoder, sides, sensor, last, big_one, big_two, bigTime_eq, flagged_eq, Head.flags]
  simp

/-- A record at a place of the cleared order (R168). -/
theorem clearedPlace_eq (s : State) (p : Fin 31) : s.clearedPlace p =
    if p.val ∈ s.faults.clearedOrder.map Fin.val then (s.faults.clearedOrder.map Fin.val).idxOf p.val + 1 else 0 := by
  unfold State.clearedPlace
  generalize s.faults.clearedOrder = l
  induction l with
  | nil => rfl
  | cons q l ih =>
    by_cases h : q = p
    · subst h
      simp [List.findIdx?_cons]
    · have hv : q.val ≠ p.val := fun e => h (Fin.ext e)
      have hb : (q.val == p.val) = false := beq_eq_false_iff_ne.mpr hv
      simp only [List.findIdx?_cons, h, decide_false, List.map_cons, List.mem_cons, Ne.symm hv, false_or,
        List.idxOf_cons, hb, cond_false] at ih ⊢
      by_cases hm : p.val ∈ l.map Fin.val
      · rw [if_pos hm] at ih ⊢
        cases hf : l.findIdx? (· = p) <;> simp_all
      · rw [if_neg hm] at ih ⊢
        cases hf : l.findIdx? (· = p) <;> simp_all

/-- The octets of a fault record with its place in the cleared order (R168, R181). -/
theorem faultItem_eq (r : Option FaultRecord) (place : Nat) : faultItem r place = match r with
    | none => List.replicate 19 0
    | some r => [coded faultStateCodes (some r.state)] ++ big 1 r.id ++
      [kindLayout r.kind, coded faultClasses r.kind.cls, coded [.minor, .major, .critical] r.severity] ++
      subjectLayout r.subject ++ big 4 r.firstSeen.toNat ++ big 4 r.lastSeen.toNat ++ big 1 r.occurrences ++
      [flagged [r.carriedOver], coded resetCodes r.detail] ++ big 1 place := by
  cases r with
  | none => rfl
  | some r =>
    simp [faultItem, coded_faultState, big_one, kindLayout_eq, coded_class, coded_severity, subjectLayout_eq, big_four_toNat,
      flagged_one, coded_reset]

theorem faultLayout_eq (s : State) (i : Nat) : faultLayout s.faults i = s.faultPosition i := by
  unfold faultLayout State.faultPosition
  by_cases h : i < 31
  · have e : s.faults.table[i]? = some s.faults.table[i] := Vector.getElem?_eq_getElem h
    rw [dif_pos h, faultItem_eq, clearedPlace_eq, if_pos h, e, Option.join_some]
    all_goals cases s.faults.table[i] <;> rfl
  · have out : ¬ i ∈ s.faults.clearedOrder.map Fin.val := by
      intro hm
      obtain ⟨p, _, rfl⟩ := List.mem_map.mp hm
      exact h p.isLt
    rw [dif_neg h, faultItem_eq, if_neg h, if_neg out]
    all_goals cases s.faults.overflow <;> rfl

theorem windowed_eq (first last : Octet) (item : Nat → List Octet) : windowed first last item = windowItems first last item := by
  simp [windowed, windowItems, List.range'_eq_map_range, List.flatMap_map]

theorem entryLayout_eq (c : ConfigImage) (t : TableId) (i : Nat) : entryLayout c t i = c.entryOctets t i := by
  cases t <;> simp only [entryLayout, ConfigImage.entryOctets, big_two_toNat] <;> split <;> simp [*]

/-! ## STATUS -/

/-- The number of records that satisfy a test, the overflow record among them (log 34). -/
theorem countFaults_eq (s : State) (p : FaultRecord → Bool) :
    big 1 ((s.faults.table.toList ++ [s.faults.overflow]).countP fun o => o.any p) = [s.countFaults p] := by
  have count : ∀ l : List (Option FaultRecord), l.countP (fun o => o.any p) = ((l.filterMap id).filter p).length := by
    intro l
    induction l with
    | nil => rfl
    | cons o l ih =>
      cases o with
      | none => simpa using ih
      | some r => cases h : p r <;> simp [h, ih]
  rw [big_one, count]
  unfold State.countFaults FaultUnit.records
  cases s.faults.overflow <;> simp

/-- The octet of a TEST reply (R178, R181). -/
theorem answers_eq (f : TrackId → Bool) : flagged ((List.finRange 4).map f) = (State.trackBits f).setWidth 8 := by
  rw [flagged_eq]
  show octet (flags [f 0, f 1, f 2, f 3]) = _
  unfold State.trackBits
  generalize f 0 = a0, f 1 = a1, f 2 = a2, f 3 = a3
  revert a0 a1 a2 a3
  decide

/-- The octet of the tracks (R163, R169). -/
theorem tracks_eq (s : State) :
    flagged ((List.finRange 4).map (s.answer .occupied) ++ (List.finRange 4).map (s.answer .demand)) =
      State.trackBits s.trackDemand ++ State.trackBits s.trackOccupied := by
  have occupied : s.answer .occupied = s.trackOccupied := by
    funext n
    have used : s.trackOccupied n = true → s.trackUsed n = true := by
      simp only [State.trackOccupied, State.trackUsed, anySection, List.any_eq_true, Bool.and_eq_true]
      rintro ⟨x, hx, h, _⟩
      exact ⟨x, hx, h⟩
    cases h : s.trackOccupied n <;> simp [State.answer, h, used]
  have demand : s.answer .demand = s.trackDemand := by
    funext n
    simp [State.answer, State.trackDemand]
  rw [occupied, demand, flagged_eq]
  show octet (flags [s.trackOccupied 0, s.trackOccupied 1, s.trackOccupied 2, s.trackOccupied 3, s.trackDemand 0,
    s.trackDemand 1, s.trackDemand 2, s.trackDemand 3]) = _
  unfold State.trackBits
  generalize s.trackOccupied 0 = a0, s.trackOccupied 1 = a1, s.trackOccupied 2 = a2, s.trackOccupied 3 = a3,
    s.trackDemand 0 = b0, s.trackDemand 1 = b1, s.trackDemand 2 = b2, s.trackDemand 3 = b3
  revert a0 a1 a2 a3 b0 b1 b2 b3
  decide

theorem boomLayout_eq (b : Boom) : boomLayout b = State.boomOctets b := by
  have state : coded [.up, .lowering, .down, .raising, .settling, .stopped] b.state = octet b.state.code := by
    cases b.state <;> decide
  simp [boomLayout, State.boomOctets, state, flagged_eq, Boom.orderFlags, BoomFailures.flags]

theorem lampLayout_eq (l : Lamp) : lampLayout l = octet l.flags := by
  simp only [lampLayout, flagged_eq, Lamp.flags]
  congr 2

theorem statusLayout_eq (s : State) : statusLayout s = s.statusOctets := by
  have contact : ∀ v : Contact, coded [.notHeard, .present, .lost] v = octet v.code := by intro v; cases v <;> decide
  have programme : coded [.silent, .warning, .secondTrain] s.out.audible.programme = octet s.out.audible.programme.code := by
    cases s.out.audible.programme <;> decide
  have consented : ∀ v : LaneStance, big 2 ((v.consent.map fun g => g.closure.toNat).getD 0) = State.consentClosure v := by
    intro v
    unfold State.consentClosure
    rcases v.consent with _ | g
    · decide
    · exact big_two_toNat g.closure
  have agreed : ∀ v : LaneStance, big 1 ((v.agreement.map fun g => g.sect.val).getD 0xFF) = [State.agreementSection v] := by
    intro v
    unfold State.agreementSection
    rcases v.agreement with _ | g
    · decide
    · exact big_one g.sect.val
  have masks : ∀ m : ClassSet, big 2 m.toNat = State.classOctets m := by
    intro m
    rw [big_two]
    simp [State.classOctets, half']
  have standing : ∀ v : Severity, (fun r : FaultRecord => r.severity == v && (r.state == .active || r.state == .acknowledged)) =
      fun r => State.standing r && r.severity == v := by
    intro v
    funext r
    unfold State.standing
    cases r.state <;> cases r.severity <;> cases v <;> rfl
  unfold statusLayout State.statusOctets
  simp only [standing, tracks_eq, countFaults_eq]
  simp only [State.partGroup, State.sequencerGroup, State.stancesGroup, State.outputsGroup, State.faultsGroup,
    State.noticesGroup, coded_modes, coded_supply, coded_reset, coded_seqStates, coded_faultState, contact, programme, consented,
    agreed, masks, boomLayout_eq, lampLayout_eq, bigTime_eq, big_one, big_two_toNat, big_four_toNat, flagged_eq]
  simp [State.sequencerFlags, State.causeFlags, State.stanceFlags, State.presenceFlags, Outputs.flags, State.raisePermitted,
    BoomId.all, Channel.all, State.lane, Stances.lane, Stances.holdOf, flags, flag, Function.comp_def]

/-! ## Frames -/

theorem checkBit_eq (r : Half) (b : Bool) : (r <<< 1) ^^^ (if r.getLsbD 15 = b then 0 else 0x1021) = crcBit r b := by
  have top : r.msb = r.getLsbD 15 := by simp [BitVec.msb_eq_getLsbD_last]
  rw [crcBit, top]
  cases r.getLsbD 15 <;> cases b <;> simp

theorem checkOctet_eq (r : Half) (o : Octet) : checkOctet r o = crcOctet r o := by
  simp only [checkOctet, checkBit_eq, List.range_succ, List.range_zero, List.nil_append, List.foldl_append, List.foldl_cons,
    List.foldl_nil]
  rfl

theorem checkValue_eq (l : List Octet) : checkValue l = crc l := by
  simp [checkValue, crc, funext fun r => funext fun o => checkOctet_eq r o]

theorem framed_eq (body : List Octet) : framed body = sealFrame body := by
  simp [framed, sealFrame, big_two, half', checkValue_eq]

end Sys2Proof.Machine
end

