-- ==== Sys2Proof/WellFormed.lean ====
section
/-!
DEFINITION. The commands that the part's lines can give: what an operand can hold (09_request_ports_and_frame_layouts.md,
Pins and electrical summary) and what a row of the table says of it. The meanings do not need these checks: each is total,
and answers every operand by the rules.
-/
namespace Sys2Proof

/-- The largest value the supply sense reads, in mV. -/
def senseLimit : Nat := 32000

/-- The largest value a lamp's current sense reads, in mA. -/
def lampCurrentLimit : Nat := 2000

/-- The largest value the audible warning's current sense reads, in mA. -/
def coilCurrentLimit : Nat := 500

/-- The shortest debounce of a sensor, 0.2 ms in hundredths of a ms (R1). -/
def shortestDebounce : Nat := 20

/-- The contact debounce, 20 ms in hundredths of a ms (R127). -/
def contactRun : Nat := 2000

/-- The most octets that the entries of a load request take: 256 less the tag, the code, the table and the count (R181). -/
def longestEntries : Nat := 252

/-- The six currents lie within what the senses read. -/
def Currents.wellFormed (i : Currents) : Bool :=
  i.amber1 ≤ lampCurrentLimit && i.redLeft1 ≤ lampCurrentLimit && i.redRight1 ≤ lampCurrentLimit &&
  i.amber2 ≤ lampCurrentLimit && i.redLeft2 ≤ lampCurrentLimit && i.redRight2 ≤ lampCurrentLimit

/-- The four currents lie within what the senses read. -/
def RedCurrents.wellFormed (i : RedCurrents) : Bool :=
  i.redLeft1 ≤ lampCurrentLimit && i.redRight1 ≤ lampCurrentLimit && i.redLeft2 ≤ lampCurrentLimit &&
  i.redRight2 ≤ lampCurrentLimit

/-- The first octet of a transfer that is ignored names no transfer (R173). -/
def namesNoTransfer : Option Octet → Bool
  | none => true
  | some o => o != 0xA5 && o != 0x5A

/-- The operands of a command are what its row and the lines allow. -/
def Instr.wellFormed : Instr → Bool
  | .powerOn sense => sense ≤ senseLimit
  | .supplyReset _ sense => sense < 18000
  | .supplyResetHoldEnd sense => 18500 < sense && sense ≤ senseLimit
  | .supplyStateChange _ sense => 18000 ≤ sense && sense ≤ senseLimit
  | .transferIgnored _ _ first => namesNoTransfer first
  | .loadData _ _ _ _ _ entries | .loadContinue _ _ _ _ _ entries => entries.length ≤ longestEntries
  | .sensorEvent _ _ _ _ held => shortestDebounce ≤ held
  | .contactChange _ _ _ _ held => contactRun ≤ held
  | .phaseEnd _ currents => currents.wellFormed
  | .provingPulseEnd _ currents => currents.wellFormed
  | .toneEnd _ current => current ≤ coilCurrentLimit
  | _ => true

end Sys2Proof
end

