-- ==== Sys2Proof/Tests/Slice0.lean ====
section
/-!
SUPPORT. The tests: an ill-formed command for each check of WellFormed, worked examples of the manual, and for every statement
with hypotheses a state and operands that meet them, clause by clause.
-/
namespace Sys2Proof.Tests
open Sys2Proof.Machine

-- One test after another: checked side by side, each holds a thread and its stack.
set_option Elab.async false

/-! ## Well-formed commands -/

theorem test_wellFormed_power : (Instr.powerOn 32000).wellFormed = true ∧ (Instr.powerOn 32001).wellFormed = false := by
  decide
theorem test_wellFormed_supplyReset :
    (Instr.supplyReset 0 17999).wellFormed = true ∧ (Instr.supplyReset 0 18000).wellFormed = false := by decide
theorem test_wellFormed_holdEnd :
    (Instr.supplyResetHoldEnd 18501).wellFormed = true ∧ (Instr.supplyResetHoldEnd 18500).wellFormed = false ∧
    (Instr.supplyResetHoldEnd 32001).wellFormed = false := by decide
theorem test_wellFormed_supplyState :
    (Instr.supplyStateChange 0 18000).wellFormed = true ∧ (Instr.supplyStateChange 0 17999).wellFormed = false ∧
    (Instr.supplyStateChange 0 32001).wellFormed = false := by decide
theorem test_wellFormed_ignored :
    (Instr.transferIgnored 0 .laneA none).wellFormed = true ∧
    (Instr.transferIgnored 0 .laneA (some 0xA5)).wellFormed = false ∧
    (Instr.transferIgnored 0 .laneA (some 0x5A)).wellFormed = false := by decide
theorem test_wellFormed_load :
    (Instr.loadData 0 .service 0 0 0 (List.replicate 252 0)).wellFormed = true ∧
    (Instr.loadData 0 .service 0 0 0 (List.replicate 253 0)).wellFormed = false ∧
    (Instr.loadContinue 0 .service 0 0 0 (List.replicate 253 0)).wellFormed = false := by decide +kernel
theorem test_wellFormed_sensor :
    (Instr.sensorEvent 0 0 .a .high 20).wellFormed = true ∧ (Instr.sensorEvent 0 0 .a .high 19).wellFormed = false := by
  decide
theorem test_wellFormed_contact :
    (Instr.contactChange 0 .exit1 .up true 2000).wellFormed = true ∧
    (Instr.contactChange 0 .exit1 .up true 1999).wellFormed = false := by decide
theorem test_wellFormed_currents :
    (Instr.phaseEnd 0 ⟨0, 0, 0, 0, 0, 2000⟩).wellFormed = true ∧
    (Instr.phaseEnd 0 ⟨0, 0, 0, 0, 0, 2001⟩).wellFormed = false ∧
    (Instr.provingPulseEnd 0 ⟨0, 2001, 0, 0⟩).wellFormed = false ∧ (Instr.toneEnd 0 501).wellFormed = false := by decide

/-! ## States for the tests -/

/-- A configuration whose toward entry of S0 has AUTO, TIMED, HALT and PROTECTING over a profile of 1200 m, 27 s, 240 s. -/
def config : ConfigImage :=
  { ConfigImage.builtIn with
    map := ConfigImage.builtIn.map.set 0 ⟨2, 15⟩
    profiles := ConfigImage.builtIn.profiles.set 2 ⟨1200, 0xFF, 0, 27, 240, 20, 20⟩ }

/-- Track 1: S0 is an approach of side A from H0 to H1, S1 the island from H1 to H2; both CLEAR. -/
def track : Vector Section 10 :=
  ((Vector.replicate 10 Section.unused).set 0 ⟨some ⟨0, .approach .a, 0, 1⟩, 0, .clear, none, none, none, []⟩).set 1
    ⟨some ⟨0, .island, 1, 2⟩, 0, .clear, none, none, none, []⟩

/-- The part in NORMAL with its outputs driven and the sequencer in a state, every cause gone. -/
def part (st : SeqState) : State :=
  { State.reset with
    sections := track
    store := { Store.initial with active := some config, state := .idle }
    seq := { Sequencer.initial with state := st, causes := ⟨false, false, false, false⟩ }
    out := { Outputs.initial with driven := true }
    mon := { Monitor.initial 23500 with mode := .normal, stabilisation := none } }

/-- The same in MAINTENANCE over a closed road. -/
def kept : State :=
  { part .closed with
    mon := { (part .closed).mon with mode := .maintenance }
    stances := { Stances.initial with permit := true, maintenance := true } }

/-- The part held in supply reset. -/
def heldPart : State := { State.reset with mon := { Monitor.initial 15000 with held := true, stabilisation := none } }

/-- A movement of two axles in S0, toward the road at 100 km/h. -/
def train : Movement where
  number := 7
  track := 0
  dir := .ab
  state := .standing
  span := [⟨0, 2⟩]
  entrySpeed := some 100
  origin := .outer
  dueTime := none
  warnedAt := none
  dueSince := none
  lastAxle := 0
  rear := none
  advance := none
  crossed := false
  crossingAxles := 0
  reversed := false
  longRaised := false

/-- The part in OPEN with a movement in slot 3, in the list of S0. -/
def withTrain (m : Movement) : State :=
  ((part .open).setSlot 3 (some m)).setSection 0 ⟨some ⟨0, .approach .a, 0, 1⟩, 2, .occupied, none, none, none, [3]⟩

/-- The part with a boom record. -/
def withBoom (b : Boom) : State := (part .closed).setBoom .entry1 b

/-- Both lanes heard, neither consenting. -/
def heard : Stances :=
  { Stances.initial with
    laneA := { LaneStance.initial with contact := .present, lastContact := some 0 }
    laneB := { LaneStance.initial with contact := .present, lastContact := some 0 } }

/-- What a command leaves of a state: the state itself where it stops. -/
def ran (c : Instr) (s : State) : State :=
  match exec c s with
  | .next t => t
  | _ => s

/-! ## Worked examples -/

/-- 250 mm in 9.00 ms is 100 km/h, in 10.00 ms 90 km/h; above 450 ms there is no speed (R6). -/
theorem test_measuredSpeed :
    measuredSpeed 250 900 = some 100 ∧ measuredSpeed 250 1000 = some 90 ∧ measuredSpeed 250 45001 = none ∧
    measuredSpeed 250 0 = none ∧ measuredSpeed 250 299 = none ∧ measuredSpeed 250 300 = some 300 := by decide

/-- Movement 1 of the worked sequence: 100 km/h at 200 000 is due at 213 200. -/
theorem test_dueTime :
    (part .open).firstDueTime { train with state := .due } 200000 = some 213200 := by decide +kernel

/-- The supply state at the bounds of its table (R189). -/
theorem test_supplyState :
    SupplyState.good.follow 22000 = .good ∧ SupplyState.good.follow 21999 = .warn ∧ SupplyState.good.follow 20500 = .warn ∧
    SupplyState.good.follow 20499 = .low ∧ SupplyState.warn.follow 20500 = .warn ∧ SupplyState.warn.follow 20499 = .low ∧
    SupplyState.warn.follow 22200 = .warn ∧ SupplyState.warn.follow 22201 = .good ∧ SupplyState.low.follow 20700 = .low ∧
    SupplyState.low.follow 20701 = .warn ∧ SupplyState.low.follow 22201 = .good := by decide

/-- The reason for which a frame fails the check, none where it passes. -/
def reasonOf (l : List Octet) : Option FrameReason :=
  match checkFrame l with
  | .error r => some r
  | .ok _ => none

/-- The reasons of the frame check (R174), each at a frame that has it and no earlier one. -/
theorem test_frameReasons :
    reasonOf [] = some .short ∧ reasonOf [0] = some .short ∧ reasonOf [0, 1] = some .length ∧
    reasonOf [1, 1] = some .length ∧ reasonOf [0, 2, 9, 1, 0] = some .short ∧
    reasonOf [0, 2, 9, 1, 0, 0, 0] = some .long ∧ reasonOf [0, 2, 9, 1, 0, 0] = some .check ∧
    reasonOf (requestFrame 9 9 []) = some .code ∧ reasonOf (requestFrame 9 1 [0]) = some .form ∧
    reasonOf (requestFrame 9 1 []) = none := by decide +kernel

/-- The check value of "123456789" under R174 is 29B1. -/
theorem test_crc : crc [0x31, 0x32, 0x33, 0x34, 0x35, 0x36, 0x37, 0x38, 0x39] = 0x29B1#16 := by decide +kernel

/-! ## Hypotheses met -/

theorem test_meets_step : ({ State.reset with pending := [.collect 0 .laneA 4] } : State).pending =
    .collect 0 .laneA 4 :: [] := rfl
theorem test_meets_empty : State.reset.pending = [] := rfl
theorem test_meets_supplyReset : (part .open).mon.held = false ∧ 17999 < 18000 := by decide
theorem test_meets_holdEnd : heldPart.mon.held = true ∧ 18501 > 18500 ∧ 18500 ≤ 18500 := by decide
theorem test_meets_supplyState : (part .open).mon.held = false ∧ (part .open).mon.supply = .good ∧ 22000 ≤ 22000 ∧
    20500 ≤ 21999 ∧ 21999 < 22000 ∧
    (SupplyState.fresh 22000 = .warn ∧ 20499 < 20500 ∧ 20500 ≤ 22200 ∧ 22200 < 22201) ∧
    (SupplyState.fresh 20499 = .low ∧ 20700 ≤ 20700 ∧ 20700 < 20701) := by decide
theorem test_meets_stabilisation : State.reset.mon.held = false ∧ State.reset.mon.stabilisation = some 2000 ∧
    reached (State.reset.advance 200000).now 2000 = true ∧ State.reset.mon.mode = .starting ∧
    State.reset.seq.state = .failedClosed ∧ State.reset.seq.causes.start = true := by decide +kernel
theorem test_meets_leaving :
    let s : State := { State.reset with store := { Store.initial with state := .reading 100 } }
    s.mon.held = false ∧ s.store.state = .reading 100 ∧ reached (s.advance 10000).now 100 = true := by decide +kernel
/-- At the end of the image read, with an image. -/
def reading (c : ConfigImage) : State :=
  { State.reset with
    store := { Store.initial with state := .reading 100, image := c, imageAgrees := true, imageValid := true }
    mon := { Monitor.initial 23500 with stabilisation := none } }
theorem test_meets_frameError : (part .open).mon.held = false ∧ reasonOf [0, 1] = some .length := by decide +kernel
theorem test_meets_roundTrip : [1#8].length ≤ 254 ∧ RequestKind.test.formHolds [1] = true ∧
    RequestKind.loadData.formHolds [1, 1, 5, 15] = true := by decide +kernel
theorem test_meets_refusals : (part .open).mon.held = false ∧ RequestKind.poll.modes .laneA = [] ∧
    RequestKind.boomTest.isLoad = false ∧ RequestKind.boomTest.modes .service = [.maintenance] ∧
    (part .open).mon.mode ∉ RequestKind.boomTest.modes .service := by decide

/-- The part in OPEN in the SINGLE arrangement. -/
def alone : State :=
  let c : ConfigImage := { config with sequence := { config.sequence with arrangement := 1 - config.sequence.arrangement } }
  { part .open with store := { (part .open).store with active := some c } }

/-- Lane B in SINGLE, and a DIRECT from the service port, are refused REFUSED-PORT, and a BOOM-TEST in NORMAL REFUSED-MODE. -/
theorem test_refusals : alone.cfg.dual = false ∧ alone.heard .laneB = true ∧ RequestKind.status.modes .laneB ≠ [] ∧
    (part .open).heard .service = true ∧ [0#8, 1].getD 1 0 = 1 ∧ RequestKind.resetSection.formHolds [0, 1] = true ∧
    ran (.requestFrameFailed 0 .laneB (requestFrame 9 1 [])) alone =
      (alone.asked 0 .status .laneB []).replied .laneB 9 .status .refusedPort [] ∧
    ran (.requestFrameFailed 0 .service (requestFrame 9 16 [0, 1])) (part .open) =
      ((part .open).asked 0 .resetSection .service [0, 1]).replied .service 9 .resetSection .refusedPort [] ∧
    ran (.boomTest 0 .service 9 0 0) (part .open) =
      ((part .open).asked 0 .boomTest .service [0, 0]).replied .service 9 .boomTest .refusedMode [] := by decide +kernel
theorem test_meets_reads : (part .open).permits .status .laneA = true ∧ { (part .open) with stances := heard }.heard .laneA ∧
    (part .open).permits .readWindow .service = true ∧ TableId.ofCode 5 = some .sequence ∧
    (part .open).permits .poll .signaller = true ∧ (part .open).permits .test .laneB = true ∧ Predicate.ofCode 7 ≠ none ∧
    (part .open).permits .readFaults .signaller = true ∧ (31#8).toNat ≤ 31 := by decide +kernel

/-- The outcome in the reply that a request leaves, its fifth octet (R181). -/
def outcomeOf (c : Instr) (p : Port) (s : State) : Option Octet := ((ran c s).port p).reply.bind fun l => l[4]?

/-- The reads that are refused: each range at its bound, and the copies that are absent. -/
theorem test_readsRefused :
    let s : State := { (part .open) with stances := heard }
    let none_ : State := { s with store := { s.store with active := none, imageValid := false } }
    [.test 0 .laneA 1 8, .readMovements 0 .laneA 1 2 1, .readMovements 0 .laneA 1 0 16, .readFaults 0 .signaller 1 1 0,
      .readFaults 0 .signaller 1 0 32, .readWindow 0 .service 1 3 0 0 0, .readWindow 0 .service 1 0 6 0 0,
      .readWindow 0 .service 1 0 1 3 2, .readWindow 0 .service 1 0 1 0 21].map (fun c => outcomeOf c (match c with
        | .test .. | .readMovements .. => .laneA
        | .readFaults .. => .signaller
        | _ => .service) s) = List.replicate 9 (some (octet ReplyOutcome.refusedRange.code)) ∧
    [.readWindow 0 .service 1 1 5 0 0, .readWindow 0 .service 1 2 5 0 0].map (fun c => outcomeOf c .service none_) =
      List.replicate 2 (some (octet ReplyOutcome.refusedState.code)) ∧
    outcomeOf (.readWindow 0 .service 1 0 5 0 0) .service none_ = some (octet ReplyOutcome.done.code) := by decide +kernel
theorem test_meets_attention : (part .open).permits .setAttention .laneA = true ∧
    AttentionMode.ofCode 3 = some ((part .open).port .laneA).mode ∧
    (∃ m, AttentionMode.ofCode 1 = some m ∧ m ≠ ((part .open).port .laneA).mode) ∧ 3 < (4#8).toNat :=
  ⟨by decide +kernel, by decide +kernel, ⟨.notice, by decide +kernel⟩, by decide⟩
theorem test_meets_ackFault :
    let u := (FaultUnit.initial).raise 5 .supplyWarn .supply .minor
    (part .open).permits .ackFault .signaller = true ∧ u.idInUse 1 = true ∧ u.idInUse 2 = false ∧
    (u.table[(0 : Fin 31)]).map FaultRecord.id = some 1 := by decide +kernel
theorem test_meets_masks : kept.permits .setMasks .service = true ∧ (511#16).toNat ≤ 511 ∧ 511 < (512#16).toNat := by
  decide +kernel
theorem test_meets_hold : (part .open).permits .hold .service = true ∧ (part .open).permits .release .laneB = true := by
  decide +kernel
theorem test_meets_consent : Port.laneA.lane = some .a ∧ (part .closed).permits .consent .laneA = true ∧
    (part .closed).seq.state = .closed ∧ (part .open).seq.state ≠ .closed ∧ (1 : Half) ≠ (part .closed).seq.closure ∧
    ((part .closed).lane .a).hold = false := by decide +kernel
theorem test_meets_agree :
    let s := (part .open).setSection 0 ((part .open).sect 0 |>.disturbedBy .headFailed)
    s.permits .agreeReset .laneB = true ∧ (s.sect 0).place ≠ none ∧ (s.sect 0).state = .disturbed ∧
    (s.sect 1).state ≠ .disturbed ∧ (s.sect 9).place = none := by decide +kernel
theorem test_meets_maintenance : (part .closed).permits .permitMaintenance .signaller = true ∧
    kept.permits .withdrawPermit .signaller = true ∧ kept.stances.maintenance = true ∧
    (part .closed).stances.maintenance = false ∧ (part .closed).permits .enterMaintenance .service = true ∧
    ({ part .closed with stances := { Stances.initial with permit := true } } : State).permits .enterMaintenance .service =
      true ∧ (part .closed).stances.permit = false ∧ kept.permits .leaveMaintenance .service = true := by decide +kernel
theorem test_meets_depart :
    let s := withTrain train
    s.permits .depart .laneA = true ∧ s.slotOf 7 = some 3 ∧ s.slot 3 = some train ∧ s.situation train = .toward ∧
    s.situation { train with dir := .ba } = .away ∧ s.slotOf 8 = none := by decide +kernel
theorem test_meets_reopen :
    let m := { train with state := .due, dueSince := some 0 }
    let s := withTrain m
    s.permits .reopenStanding .signaller = true ∧ s.slotOf 7 = some 3 ∧ s.slot 3 = some m ∧ m.state = .due ∧
    s.haltedAlone m = true ∧ (s.advance 6320100).overdue m = true ∧ (s.advance 6320000).overdue m = false := by
  decide +kernel
theorem test_meets_resetSection :
    let s := (part .open).setSection 0 ((part .open).sect 0 |>.disturbedBy .headFailed)
    let g : LaneStance := { LaneStance.initial with agreement := some ⟨0, 0⟩ }
    s.permits .resetSection .signaller = true ∧ (s.sect 0).place = some ⟨0, .approach .a, 0, 1⟩ ∧
    (s.sect 0).state = .disturbed ∧ (s.head 0).failure = none ∧ (s.head 1).failure = none ∧ s.agreed 0 = false ∧
    ({ s with stances := { Stances.initial with laneA := g, laneB := g } } : State).agreed 0 = true := by decide +kernel
theorem test_meets_boomTest : kept.permits .boomTest .service = true ∧ BoomId.ofCode 3 = some .exit2 ∧
    Order.ofCode 0 = some .raise ∧ kept.approach.traffic = false ∧ kept.trafficNow = false ∧
    (kept.boom .exit2).state ≠ .stopped ∧ (∀ j ∈ BoomId.all, (kept.boom j).source ≠ .test) ∧ 3 < (4#8).toNat ∧
    1 < (2#8).toNat := by decide +kernel
theorem test_meets_lampTest : kept.permits .lampTest .service = true ∧ Channel.ofCode 5 = some .redRight2 ∧
    kept.out.lampTest = none ∧ 5 < (6#8).toNat ∧ reached (kept.advance 500000).now 5000 = true ∧
    reached (kept.advance 499999).now 5000 = false := by decide +kernel
theorem test_meets_restart : kept.permits .restart .service = true := by decide +kernel
theorem test_meets_load :
    let s : State := { kept with ports := { kept.ports with window := some ⟨.map, 3, 20, 5⟩ } }
    s.permits .loadWindow .service = true ∧ s.permits .loadData .service = true ∧ s.permits .loadContinue .service = true ∧
    s.store.busy = false ∧ TableId.ofCode 1 = some .map ∧ RequestKind.loadData.formHolds [1, 1, 5, 15] = true ∧
    (20#8).toNat < TableId.map.entries ∧ TableId.map.entries ≤ (21#8).toNat := by decide +kernel
theorem test_meets_commit : kept.permits .commit .service = true ∧ kept.store.busy = false ∧
    kept.store.staging.failedCheck = some 2 ∧ kept.store.active = some config := by decide +kernel
/-- A configuration that passes the eleven checks: one island from H0 to H1. -/
def single : ConfigImage :=
  { ConfigImage.builtIn with
    sections := ConfigImage.builtIn.sections.set 0 ⟨1, 1, 0, 0, 0, 1⟩
    profiles := ConfigImage.builtIn.profiles.set 0 ⟨0, 0xFF, 0, 27, 0, 0, 0⟩ }

/-- A good image at the end of the image read, and a blank one: the mode, the cause set, the head of the queue and the
records; with a fault kept across a restart whose condition does not stand, and one whose condition does. -/
theorem test_meets_leavingGood :
    let good := reading single
    let bad := reading ConfigImage.blank
    let kept : State := { good with
      faults := { (((FaultUnit.initial.raise 0 .storeWriteFailed .configuration .major).raise 0 .sectionDisturbed (.sect 0)
        .major)).restarted with masks := 3 }, mon := { good.mon with resetKind := .restart, previousKind := some .powerOn } }
    let after (s : State) : State := ran (.readCompletion 0) s
    let records (s : State) : List (FaultKind × FaultState × Nat) :=
      (after s).faults.table.toList.filterMap fun r => r.map fun r => (r.kind, r.state, r.occurrences)
    [good, bad].map State.imageGood = [true, false] ∧ StartUpShape good ∧ QueueBounded good ∧ ClearedListed good.faults ∧
    good.faults.records = [] ∧ good.faults.clearedOrder = [] ∧ good.seq.state = .failedClosed ∧
    ((after good).mon.mode, (after good).seq.causes) = (.normal, ⟨false, false, false, false⟩) ∧
    ((after bad).mon.mode, (after bad).seq.causes) = (.unconfigured, ⟨false, false, true, true⟩) ∧
    [good, kept].map (fun s => ((after s).faults.queue.head?)) =
      [some (.crossingStatus ((after good).statusNotice (some (.powerOn, none)))),
        some (.crossingStatus ((after kept).statusNotice (some (.restart, some .powerOn))))] ∧
    records good = [(.sectionDisturbed, .active, 1), (.partRestarted, .cleared, 1)] ∧
    records bad = [(.partRestarted, .cleared, 1), (.configInvalid, .active, 1)] ∧
    records kept = [(.storeWriteFailed, .cleared, 1), (.sectionDisturbed, .active, 2), (.partRestarted, .cleared, 1)] := by
  refine ⟨by decide +kernel, ⟨fun h => absurd h (by decide), fun h => absurd rfl h, fun _ _ => rfl⟩, by
    unfold QueueBounded; decide +kernel, ⟨List.nodup_nil, fun p => ⟨fun h => absurd h List.not_mem_nil, fun ⟨r, h, _⟩ => absurd h (by
      have e : (reading single).faults.table[p] = none := Vector.getElem_replicate ..
      rw [e]; exact fun n => nomatch n)⟩⟩, by decide +kernel⟩

/-- A copy that fails each check, and none before it; one that passes them all. -/
theorem test_checks :
    let with_ (x : SectionId) (e : SectionEntry) (c : ConfigImage) : ConfigImage := { c with sections := c.sections.set x e }
    let out (e : OutputsEntry) : ConfigImage := { single with outputs := single.outputs.set 0 e }
    let near := with_ 1 ⟨1, 1, 1, 1, 1, 2⟩ single
    let profile (p : ProfileEntry) : ConfigImage := { near with
      map := near.map.set 3 ⟨1, 0⟩, profiles := near.profiles.set 1 p }
    [single, with_ 0 ⟨2, 1, 0, 0, 0, 1⟩ single, with_ 0 ⟨0, 1, 0, 0, 0, 1⟩ single, with_ 0 ⟨1, 1, 0, 0, 1, 1⟩ single,
      with_ 1 ⟨1, 2, 0, 0, 0, 2⟩ single, { single with heads := single.heads.set 0 ⟨99, 10, 0, 50⟩ },
      { single with map := single.map.set 20 ⟨0, 16⟩ }, { single with profiles := single.profiles.set 0 ⟨0, 0xFF, 0, 91, 0, 0, 0⟩ },
      profile ⟨1200, 12, 0, 27, 240, 20, 20⟩, profile ⟨1200, 2, 100, 27, 240, 20, 20⟩, out ⟨5, 300, 300, 10⟩,
      { single with sequence := { single.sequence with amber := 6 } }, profile ⟨1200, 5, 1199, 27, 240, 20, 20⟩].map
      ConfigImage.failedCheck =
      [none, some 1, some 2, some 3, some 4, some 5, some 6, some 7, some 8, some 9, some 10, some 11, none] := by
  decide +kernel

theorem test_meets_commitAccepted : single.failedCheck = none ∧ config.sections ≠ single.sections ∧
    config.heads = single.heads ∧ ({ config with map := single.map } : ConfigImage).sections = config.sections := by
  decide +kernel
theorem test_meets_writeEnds :
    let s : State := { kept with store := { kept.store with state := .writing 400 } }
    s.mon.held = false ∧ s.store.busy = true ∧ s.store.active = some config ∧ reached (s.advance 40000).now 400 = true ∧
    reached (s.advance 39999).now 400 = false := by decide +kernel
theorem test_meets_faultTable :
    let u := (FaultUnit.initial).raise 5 .supplyWarn .supply .minor
    u.find .supplyLow .supply = none ∧ u.freePosition = some 1 ∧
    (u.find .supplyWarn .supply).map (fun q => q.2.state) = some .active ∧
    ((u.clear 6 .supplyWarn .supply).find .supplyWarn .supply).map (fun q => q.2.state) = some .cleared ∧
    ((FaultUnit.acknowledge u 1).map fun q => q.2) = some (some .acknowledged) := by decide +kernel
theorem test_meets_sensor :
    let s := (part .open).setHead 4 { (Head.initial.observe 0) with decoder := .quiet, sensorA := ⟨false, 0, false⟩ }
    s.mon.held = false ∧ (s.head 4).observedFrom = some 0 ∧ s.uptime + 1000 < max (s.uptime + 1000 - 99) 0 + s.cfg.debounce 4 ∧
    max (s.uptime + 1000 - 100) 0 + s.cfg.debounce 4 ≤ s.uptime + 1000 ∧
    (Level.high == s.cfg.occupiedLevel 4 .a) = true ∧ ((s.head 4).sensor .a).occupied = false ∧
    ((s.head 4).sensor .b).occupied = true := by decide +kernel
theorem test_meets_passage :
    let s := withTrain train
    s.sectionBeside 1 Dir.ab.behind = some 0 ∧ s.sectionBeside 1 Dir.ab.before = some 1 ∧ (s.sect 0).state = .occupied ∧
    nearestEnd Dir.ab.before (s.sect 0).list = some 3 ∧ s.slot 3 = some train ∧ (s.sect 1).count < 250 ∧
    (s.sect 1).list.length < 4 ∧ s.sectionBeside 0 Dir.ab.behind = none ∧ (part .open).sectionBeside 0 Dir.ab.before = some 0 ∧
    ((part .open).sect 0).list = [] ∧ (part .open).freeSlot = some 0 ∧
    ((s.passage ⟨1, .ab, none, 9⟩).slot 3).map Movement.span = some [⟨1, 1⟩, ⟨0, 1⟩] := by decide +kernel
theorem test_meets_heads :
    let s := (part .open).setHead 1 (Head.initial.observe 0)
    let f := (part .open).setHead 1 { Head.initial with failure := some .sensorStuck, quietSince := some 0 }
    (s.head 1).observedFrom ≠ none ∧ ((s.head 1).sensor .a).occupied = true ∧ s.cfg.stuckMs 1 = 5000 ∧
    5000 < since (s.advance 500100).now ((s.head 1).sensor .a).changed ∧
    ¬(5000 < since (s.advance 500099).now ((s.head 1).sensor .a).changed) ∧ (f.head 1).failure ≠ none ∧
    (f.head 1).quietSince = some 0 ∧ 5000 ≤ since (f.advance 500000).now 0 ∧
    f.sectionBeside 1 .a = some 0 ∧ f.sectionBeside 1 .b = some 1 := by decide +kernel
theorem test_meets_movementTimers :
    let m := { train with state := .arriving, dueTime := some 20000 }
    let d := { train with state := .due, dueSince := some 0 }
    let s := withTrain m
    s.slot 3 = some m ∧ reached (s.advance 2000000).now 20000 = true ∧ reached (s.advance 1999999).now 20000 = false ∧
    (s.governingProfile m).raiseMargin = 20 ∧ reached (after (s.advance 0).now 20000) 20000 = true ∧
    (withTrain d).slot 3 = some d ∧ 240000 < since ((withTrain d).advance 24000100).now 0 := by decide +kernel
theorem test_meets_stepTimers :
    let on (st : SeqState) : State := { part st with seq := { (part st).seq with stepTimer := some 3000 } }
    (on .amber).sound = true ∧ (on .amber).seq.stepTimer = some 3000 ∧ (on .redWarning).out.booms.entriesDown = false ∧
    (on .exitWait).out.booms.allDown = false ∧ reached ((on .amber).advance 300000).now 3000 = true ∧
    reached ((on .amber).advance 299999).now 3000 = false := by decide +kernel
theorem test_meets_closedTimers :
    let s : State := { part .closed with
      seq := { (part .closed).seq with minClosed := some (.running 5000), secondTrain := some 5000 } }
    s.mon.held = false ∧ s.seq.minClosed = some (.running 5000) ∧ s.sound = true ∧ s.seq.secondTrain = some 5000 ∧
    reached (s.advance 500000).now 5000 = true ∧ reached (s.advance 499999).now 5000 = false := by decide +kernel
theorem test_meets_laneTimers :
    let g : Consent := ⟨0, 0⟩
    let s : State := { part .closed with stances := { heard with
      laneB := { heard.laneB with consent := some g, agreement := some ⟨0, 0⟩ }, disagreement := some ⟨0, false⟩ } }
    let t : State := { s with seq := { s.seq with minClosed := some .elapsed } }
    let u : State := { s with stances := { Stances.initial with
      laneA := { LaneStance.initial with supervisedFrom := some 0 } } }
    s.cfg.dual = true ∧ (s.lane .a).lastContact = some 0 ∧
    reached (s.advance 100000).now (after 0 s.cfg.laneContactMs) = true ∧
    reached (s.advance 99999).now (after 0 s.cfg.laneContactMs) = false ∧ (s.lane .b).consent = some g ∧
    reached (s.advance 1000000).now (after 0 10000) = true ∧ reached (s.advance 3000000).now (after 0 30000) = true ∧
    (t.advance 500000).disagreeing = true ∧ (t.lane .a).consent = none ∧ (u.lane .a).contact = .notHeard ∧
    (u.lane .a).supervisedFrom = some 0 := by decide +kernel
theorem test_meets_contacts :
    let s := withBoom { Boom.off with state := .lowering }
    let u := withBoom { Boom.off with state := .down, downContact := ⟨true, 0⟩ }
    s.out.driven = true ∧ (s.boom .entry1).source = .sequencer ∧ (s.boom .entry1).made .down = false ∧
    s.uptime + 3000 < max (s.uptime + 3000 - 1999) s.out.conditionedFrom + 2000 ∧
    max (s.uptime + 3000 - 2000) s.out.conditionedFrom + 2000 ≤ s.uptime + 3000 ∧
    ((s.boom .entry1).contact .down true 10).downAlone = true ∧ ((u.boom .entry1).contact .down false 10).downContact.made =
      false ∧ (u.boom .entry1).order = .lower ∧
    (({ Boom.off with state := .raising } : Boom).contact .up true 10).upAlone = true ∧ State.reset.out.driven = false := by
  decide +kernel
theorem test_meets_settle :
    let s := withBoom { Boom.off with state := .settling, pending := some .lower, settleExpiry := some 1000 }
    (s.boom .entry1).pending = some .lower ∧ (s.boom .entry1).settleExpiry = some 1000 ∧
    reached (s.advance 100000).now 1000 = true ∧ reached (s.advance 99999).now 1000 = false ∧
    ¬((s.boom .entry1).source = .test) := by decide +kernel
theorem test_meets_boomTimers :
    let s := withBoom { Boom.off with travelExpiry := some 12000, restMark := some 0, conflictSince := some 0 }
    let u := withBoom { Boom.off with state := .stopped, conflictSince := some 0, recoverySince := some 0 }
    s.out.driven = true ∧ (s.boom .entry1).state = .lowering ∧ (s.boom .entry1).travelExpiry = some 12000 ∧
    reached (s.advance 1200000).now 12000 = true ∧ (s.boom .entry1).restMark = some 0 ∧
    reached (s.advance 100000).now (after 0 1000) = true ∧ reached (s.advance 20000).now (after 0 200) = true ∧
    (u.boom .entry1).state = .stopped ∧ (u.boom .entry1).failures.conflict = false ∧
    (u.boom .entry1).recoverySince = some 0 ∧ reached (u.advance 200000).now (after 0 2000) = true := by decide +kernel
theorem test_meets_lamps :
    let s : State := { part .open with out := { (part .open).out with
      lamps := Lamps.initial.set .amber1 { Lamp.initial with lit := true }
      flash := ⟨.one, 600, false⟩, pulseTimer := some 60000, pulse := some 100
      audible := ⟨.warning, some ⟨false, 700, 500⟩, false, 1⟩ } }
    s.out.driven = true ∧ reached (s.advance 60000).now s.out.flash.phaseEnd = true ∧ (s.lamp .amber1).whole = true ∧
    (s.lamp .amber1).lit = true ∧ (s.lamp .redLeft1).lit = false ∧ s.out.pulseTimer = some 60000 ∧
    reached (s.advance 6000000).now 60000 = true ∧ s.out.pulse = some 100 ∧ reached (s.advance 10000).now 100 = true ∧
    s.out.audible.tone = some ⟨false, 700, 500⟩ ∧ reached (s.advance 50000).now 500 = true := by decide +kernel
theorem test_meets_pulseEnd :
    let s : State := { part .open with ports := { Ports.initial with
      laneA := { PortRecord.initial .change with line := true, pulseEnd := some 5 } } }
    (s.port .laneA).pulseEnd = some 5 ∧ (s.port .laneA).mode = .change ∧ s.uptime + 4 < 5 ∧ 5 ≤ s.uptime + 5 := by
  decide +kernel

/-! ## The premises of the rules over every step, met where they speak of a change -/

/-- What a step leaves of a state: the state itself where it stops. -/
def stepped (s : State) : State :=
  match step s with
  | .next t => t
  | _ => s

/-- A road in RAISING with a demand appearing goes to RECLOSING under a new closure number; the state is handed as it stands. -/
def rising : State :=
  { part .raising with
    out := { (part .raising).out with booms := Booms.build fun _ => { Boom.off with state := .raising, order := .raise } }
    pending := [.hold 0 .service 1] }

theorem test_closureRises : (stepped rising).seq.state = .reclosing ∧
    (stepped rising).seq.closure = rising.seq.closure + 1 ∧ (stepped rising).approach.demand = true ∧
    rising.approach.demand = false := by decide +kernel

/-- A closed road whose minimum time ends with both consents rises: each boom's order changes to RAISE. -/
def closing : State :=
  let lane : LaneStance := { LaneStance.initial with contact := .present, lastContact := some 0, consent := some ⟨0, 0⟩ }
  { part .closed with
    seq := { (part .closed).seq with minClosed := some (.running 0) }
    stances := { Stances.initial with laneA := lane, laneB := lane }
    out := { (part .closed).out with booms := Booms.build fun _ => { Boom.off with state := .down, downContact := ⟨true, 0⟩ } }
    pending := [.minimumClosedExpiry 0] }

theorem test_roadRises : (stepped closing).seq.state = .raising ∧
    (∀ i ∈ BoomId.all, (closing.boom i).order = .lower ∧ ((stepped closing).boom i).order = .raise) ∧
    (stepped closing).trafficNow = false := by decide +kernel

theorem test_generationRises :
    let s : State := { withTrain { train with state := .arriving, dueTime := some 0 } with pending := [.dueTimeReached 0 3] }
    (stepped s).tracker.generation = s.tracker.generation + 1 ∧ (stepped s).tracker.slots ≠ s.tracker.slots := by
  decide +kernel

theorem test_meets_roadHeld : RoadHeld closing ∧ StartUpShape closing ∧ MaintenanceMatches closing ∧ ActiveMatches closing :=
  ⟨⟨fun i _ => by cases i <;> decide +kernel, fun i h => by cases i <;> exact absurd h (by decide),
    fun h => absurd h (by decide), fun h => absurd h (by decide), by decide +kernel⟩,
    ⟨fun h => absurd h (by decide), fun h => absurd rfl h, fun _ h => by cases h⟩, by
      refine ⟨fun h => absurd h (by decide), fun h => absurd h (by decide)⟩, by
      refine ⟨fun h => absurd h (by decide +kernel), fun h => absurd h (by decide)⟩⟩

theorem test_meets_closureRule : RoadHeld rising ∧ StartUpShape rising :=
  ⟨⟨fun i _ => by cases i <;> decide +kernel, fun i h => by cases i <;> exact absurd h (by decide),
    fun h => absurd h (by decide), fun h => absurd h (by decide), by decide +kernel⟩,
    ⟨fun h => absurd h (by decide), fun h => absurd rfl h, fun _ h => by cases h⟩⟩

theorem test_meets_kept : QueueBounded closing ∧ FaultsDistinct closing.faults ∧ ClearedListed closing.faults ∧
    BoomsShaped closing ∧ LinesFollow closing ∧ StoppedHolds closing ∧ closing.out.major = closing.out.lamps.major ∧
    (closing.approach.demand = true ↔ closing.demandNow = true) :=
  ⟨by unfold QueueBounded; decide +kernel,
    fun p _ r _ h => absurd h (by
      have e : closing.faults.table[p] = none := Vector.getElem_replicate ..
      rw [e]; exact fun n => nomatch n),
    ⟨List.nodup_nil, fun p => ⟨fun h => absurd h List.not_mem_nil, fun ⟨_, h, _⟩ => absurd h (by
      have e : closing.faults.table[p] = none := Vector.getElem_replicate ..
      rw [e]; exact fun n => nomatch n)⟩⟩,
    fun _ i => by cases i <;> (unfold BoomShape; decide +kernel),
    ⟨rfl, rfl, rfl, rfl⟩, fun h => absurd h (by decide +kernel), by decide +kernel,
    by decide +kernel⟩

theorem test_meets_shapes : SectionsShaped closing := by unfold SectionsShaped SectionShape; decide +kernel

theorem test_meets_proven : (rising.seq.proven = true ↔ rising.seq.state = .closed ∧ rising.out.booms.allDown = true ∧
    rising.out.booms.anyStopped = false ∧ rising.out.lamps.major = false) ∧ rising.out.major = rising.out.lamps.major := by
  decide +kernel

/-! ## The clauses of the statements, each at a state that comes to it -/

theorem test_meets_attentionKept :
    let s : State := { part .open with stances := heard }
    s.permits .setAttention .laneA = true ∧ s.heard .laneA = true ∧ AttentionMode.ofCode 3 = some (s.port .laneA).mode := by
  decide +kernel

/-- A closed road, its minimum time elapsed, with the consent of Lane B and the contact of both lanes. -/
def waiting : State :=
  { part .closed with
    seq := { (part .closed).seq with minClosed := some .elapsed }
    stances := { heard with laneB := { heard.laneB with consent := some ⟨0, 0⟩ } }
    out := { (part .closed).out with booms := Booms.build fun _ => { Boom.off with state := .down, downContact := ⟨true, 0⟩ } } }

theorem test_consentRaises : waiting.sound = true ∧ waiting.heard .laneA = true ∧
    (ran (.consent 0 .laneA 1 0) waiting).seq.state = .raising ∧
    (ran (.consent 0 .laneA 1 0) { waiting with stances := heard }).seq.state = .closed ∧
    (ran (.consent 0 .laneA 1 0) { waiting with stances := heard }).approach.demand = false := by decide +kernel

/-- A consent refused for its number, or beside the lane's hold, leaves Lane B's; demand that appears takes both. -/
theorem test_consentKept :
    let held : State := { waiting with stances := { waiting.stances with laneA := { heard.laneA with hold := true } } }
    let needed : State := waiting.setSection 0 ((waiting.sect 0).disturbedBy .headFailed)
    ((ran (.consent 0 .laneA 1 1) waiting).lane .b).consent = some ⟨0, 0⟩ ∧ held.permits .consent .laneA = true ∧
    held.heard .laneA = true ∧ (held.lane .a).hold = true ∧
    ((ran (.consent 0 .laneA 1 0) held).lane .b).consent = some ⟨0, 0⟩ ∧ needed.approach.demand = false ∧
    (ran (.consent 0 .laneA 1 0) needed).approach.demand = true ∧
    ((ran (.consent 0 .laneA 1 0) needed).lane .b).consent = none := by decide +kernel

/-- A DEPART takes warned-at from the red start, and where there is none from the one set in the event (R65, R70). -/
theorem test_departWarned :
    let s := withTrain train
    let u : State := { s with seq := { s.seq with redStart := some 40 } }
    let v : State := s.setBoom .entry1 { Boom.off with state := .stopped }
    ((ran (.depart 0 .laneA 1 7) u).slot 3).map Movement.warnedAt = some (some 40) ∧
    ((ran (.depart 0 .laneA 1 7) s).slot 3).map Movement.warnedAt = some none ∧
    (ran (.depart 500 .laneA 1 7) v).seq.state = .failedClosed ∧
    ((ran (.depart 500 .laneA 1 7) v).slot 3).map Movement.warnedAt = some (some 5) := by decide +kernel

/-- What the refusals of DEPART and REOPEN-STANDING speak of: a movement in another state, not overdue, or astride. -/
theorem test_meets_standingRefusals :
    let m := { train with state := .due, dueSince := some 0 }
    let s := withTrain m
    s.slotOf 7 = some 3 ∧ s.slot 3 = some m ∧ m.state ≠ .standing ∧ train.state ≠ .due ∧
    s.haltedAlone { m with span := [⟨1, 1⟩, ⟨0, 1⟩] } = false ∧ (s.advance 6320000).overdue m = false ∧
    (s.advance 8000000).overdue { m with entrySpeed := none } = false ∧
    (s.advance 8000100).overdue { m with entrySpeed := none } = true := by decide +kernel

/-- The movement table agrees with the section records, as a computation. -/
def tableAgrees (s : State) : Bool :=
  let slots : List SlotId := List.finRange 16
  slots.all (fun k => (s.slot k).all fun m => decide (1 ≤ m.number ∧ m.number ≤ 255 ∧ m.span ≠ [] ∧
    (m.span.map SpanEntry.sect).Nodup ∧ ∀ e ∈ m.span, 1 ≤ e.axles)) &&
  slots.all (fun j => slots.all fun k => (s.slot j).all fun m => (s.slot k).all fun n => m.number != n.number || j == k) &&
  (List.finRange 10).all (fun x => decide (s.sect x).list.Nodup &&
    slots.all (fun k => (s.sect x).list.contains k == (s.slot k).any fun m => (m.span.map SpanEntry.sect).contains x) &&
    (s.sect x).count == ((s.sect x).list.map (s.axlesOf x)).sum) &&
  s.mon.mode != .starting

theorem tableShape_of_agrees {s : State} (h : tableAgrees s = true) : TableShape s := by
  simp only [tableAgrees, Bool.and_eq_true, List.all_eq_true, List.mem_finRange, true_implies] at h
  obtain ⟨⟨⟨h1, h2⟩, h3⟩, h4⟩ := h
  refine ⟨fun k m e => ?_, fun j k m n ej ek g => ?_, fun x => ⟨?_, fun k => ?_, ?_⟩, fun e => ?_⟩
  · have := h1 k; rw [e] at this; simpa using this
  · have := h2 j k; rw [ej, ek] at this; simpa [g] using this
  · simpa using (h3 x).1.1
  · have := (h3 x).1.2 k
    cases e : s.slot k <;> rw [e] at this <;> simpa using this
  · simpa using (h3 x).2
  · rw [e] at h4; exact absurd h4 (by decide)

/-- The table and the sections agree while the train stands in S0. -/
theorem test_meets_table : SectionsShaped (withTrain train) ∧ StartUpShape (withTrain train) ∧ TableShape (withTrain train) :=
  ⟨by unfold SectionsShaped SectionShape; decide +kernel,
    ⟨fun h => absurd h (by decide), fun h => absurd rfl h, fun _ h => by cases h⟩,
    tableShape_of_agrees (by decide +kernel)⟩

theorem test_tableFollows :
    let s := (withTrain train).passage ⟨1, .ab, none, 9⟩
    (s.sect 0).count = 1 ∧ (s.sect 0).list = [3] ∧ (s.sect 1).count = 1 ∧ (s.sect 1).list = [3] ∧ s.axlesOf 0 3 = 1 ∧
    s.axlesOf 1 3 = 1 := by decide +kernel

theorem test_meets_boomTestRefusals :
    let s : State := { kept with approach := ⟨false, false, true⟩ }
    let u : State := kept.setBoom .exit1 { Boom.off with source := .test }
    let v : State := kept.setBoom .exit2 { Boom.off with state := .stopped }
    s.permits .boomTest .service = true ∧ s.approach.traffic = true ∧ (u.boom .exit1).source = .test ∧
    u.permits .boomTest .service = true ∧ (v.boom .exit2).state = .stopped ∧ v.permits .boomTest .service = true := by
  decide +kernel

/-- What a commit may change beside the topology: tables that time movements, and the arrangement. -/
theorem test_meets_commitTiming :
    let on (c : ConfigImage) : State := { withTrain { train with state := .due, dueSince := some 0 } with
      store := { Store.initial with active := some single, state := .idle, staging := c }
      stances := { heard with maintenance := true }
      mon := kept.mon }
    let timing : ConfigImage := { single with profiles := single.profiles.set 0 ⟨0, 0xFF, 0, 30, 0, 0, 0⟩ }
    let other := { single.sequence with arrangement := 1 - single.sequence.arrangement }
    let lanes : ConfigImage := { single with sequence := other }
    (on timing).permits .commit .service = true ∧ timing.failedCheck = none ∧ single.profiles ≠ timing.profiles ∧
    timing.sections = single.sections ∧ timing.heads = single.heads ∧
    ((on timing).slot 3).map Movement.state = some .due ∧ lanes.failedCheck = none ∧ single.dual ≠ lanes.dual ∧
    ((ran (.commit 0 .service 1) (on lanes)).lane .b).contact = .notHeard := by decide +kernel

/-- Fault tables with no place free: one with a CLEARED record to give up, one with none. -/
theorem test_meets_fullTable :
    let r : FaultRecord := ⟨9, .supplyWarn, .minor, .supply, .active, 0, 0, 1, false, none⟩
    let u : FaultUnit := { FaultUnit.initial with table := Vector.replicate 31 (some r) }
    let v : FaultUnit := { u with clearedOrder := [4, 2] }
    u.find .supplyLow .supply = none ∧ u.freePosition = none ∧ u.clearedOrder = [] ∧ v.clearedOrder = 4 :: [2] ∧
    u.find .partRestarted .supply = none ∧ v.find .partRestarted .supply = none ∧ v.freePosition = none ∧
    (u.raise 5 .supplyLow .supply .major).overflow.map FaultRecord.state = some .active ∧
    ((u.raise 5 .supplyLow .supply .major).raise 6 .supplyLow .supply .major).overflow.map FaultRecord.occurrences =
      some 2 ∧
    (v.raise 5 .supplyLow .supply .major).table[(4 : Fin 31)].map FaultRecord.kind = some .supplyLow ∧
    (u.find .supplyWarn .supply).map (fun q => q.2.severity) = some .minor ∧
    (u.regrade 5 .supplyWarn .supply .major).table[(0 : Fin 31)].map FaultRecord.severity = some .major := by
  decide +kernel

/-- PART-RESTARTED enters CLEARED, first or again; a CROSSING-STATUS takes the place of the one that waits. -/
theorem test_meets_restartedAndStatus :
    let u := FaultUnit.initial.partRestarted 5 .restart
    let st : StatusNotice := (part .open).statusNotice none
    let q : FaultUnit := { u with queue := [.movementPassed 1 0 .ab 2 none 0] ++ .crossingStatus st :: [] }
    FaultUnit.initial.find .partRestarted .supply = none ∧ FaultUnit.initial.freePosition = some 0 ∧
    (u.find .partRestarted .supply).map (fun q => q.2.state) = some .cleared ∧
    FaultUnit.initial.queue.any Notice.isStatus = false ∧ q.queue.any Notice.isStatus = true ∧
    q.queue.any Notice.isPassed = true ∧ (List.replicate 24 (Notice.crossingStatus st)).any Notice.isPassed = false := by
  decide +kernel

/-- S0 and S1 as they stand with a count and a list. -/
def approachWith (n : Nat) (l : List SlotId) : Section := ⟨some ⟨0, .approach .a, 0, 1⟩, n, .occupied, none, none, none, l⟩
def islandWith (n : Nat) (l : List SlotId) : Section := ⟨some ⟨0, .island, 1, 2⟩, n, .occupied, none, none, none, l⟩

/-- The state, the count, the list and the cause of a section, and the span, the direction and the due time of a movement. -/
def sectionAt (s : State) (x : SectionId) : SectionState × Nat × List SlotId × Option DisturbCause :=
  ((s.sect x).state, (s.sect x).count, (s.sect x).list, (s.sect x).cause)
def movementAt (s : State) (k : SlotId) : Option (List SpanEntry × Dir × Nat) :=
  (s.slot k).map fun m => (m.span, m.dir, m.number)

/-- The state of a movement with its due time, its DUE-since and its warned-at; the kinds of fault that the table holds. -/
def timesAt (s : State) (k : SlotId) : Option (MoveState × List (Option Time)) :=
  (s.slot k).map fun m => (m.state, [m.dueTime, m.dueSince, m.warnedAt])
def kindsIn (s : State) : List FaultKind := s.faults.table.toList.filterMap fun r => r.map FaultRecord.kind

/-- From outside: an axle joins the movement within the coupling gap, and begins another after it; no slot free, a full list
and a count of 250 disturb S0. -/
theorem test_passageIn :
    let s := withTrain { train with rear := some ⟨0, 0⟩ }
    let full : State := { s with tracker := { s.tracker with slots := Vector.replicate 16 (some train) } }
    let crowded := s.setSection 0 (approachWith 4 [5, 6, 7, 8])
    let counted := s.setSection 0 (approachWith 250 [3])
    s.sectionBeside 0 Dir.ab.behind = none ∧ s.sectionBeside 0 Dir.ab.before = some 0 ∧ s.cfg.couplingGapMs = 3000 ∧
    movementAt (s.passage ⟨0, .ab, none, 3000⟩) 3 = some ([⟨0, 3⟩], .ab, 7) ∧
    movementAt (s.passage ⟨0, .ab, none, 3001⟩) 0 = some ([⟨0, 1⟩], .ab, 1) ∧
    full.freeSlot = none ∧
    [s, full, crowded, counted].map (fun u => sectionAt (u.passage ⟨0, .ab, none, 3001⟩) 0) =
      [(.occupied, 3, [0, 3], none), (.disturbed, 0, [], some .tableFull), (.disturbed, 0, [], some .listFull),
        (.disturbed, 0, [], some .overflow)] := by decide +kernel

/-- From S0 into S1: the axle counts there; a DISTURBED island is not counted, one at 250 axles or of four movements is
disturbed, with OVERFLOW where both hold (log 46), and an empty list of S0 is UNDERFLOW. -/
theorem test_passageBetween :
    let s := withTrain train
    let at_ (r : Section) : State := (s.setSection 1 r).passage ⟨1, .ab, none, 9⟩
    sectionAt (at_ (islandWith 250 [4, 5, 6, 7])) 1 = (.disturbed, 0, [], some .overflow) ∧
    kindsIn (at_ (islandWith 250 [4, 5, 6, 7])) = [.sectionDisturbed] ∧
    [s.passage ⟨1, .ab, none, 9⟩, at_ (islandWith 250 [4]), at_ (islandWith 4 [4, 5, 6, 7])].map (sectionAt · 1) =
      [(.occupied, 1, [3], none), (.disturbed, 0, [], some .overflow), (.disturbed, 0, [], some .listFull)] ∧
    (at_ ((islandWith 1 [4]).disturbedBy .headFailed)).sect 1 = (islandWith 1 [4]).disturbedBy .headFailed ∧
    [s.passage ⟨1, .ab, none, 9⟩, (s.setSection 0 (approachWith 0 [])).passage ⟨1, .ab, none, 9⟩].map (sectionAt · 0) =
      [(.occupied, 1, [3], none), (.disturbed, 0, [], some .underflow)] := by decide +kernel

/-- Out of a DISTURBED section, or one that the axle disturbs with UNDERFLOW: a movement FROM-DISTURBED begins beyond, a second
axle joins it within the coupling gap, and begins another after it; between two DISTURBED sections nothing happens. -/
theorem test_passageFromDisturbed :
    let s := part .open
    let from_ := s.setSection 0 ((s.sect 0).disturbedBy .headFailed)
    let full : State := { from_ with tracker := { from_.tracker with slots := Vector.replicate 16 (some train) } }
    let p : Passage := ⟨1, .ab, some 50, 9⟩
    [s, from_].map (fun u => ((u.passage p).slot 0).map Movement.origin) = [some .fromDisturbed, some .fromDisturbed] ∧
    [s, from_].map (fun u => sectionAt (u.passage p) 0) =
      [(.disturbed, 0, [], some .underflow), (.disturbed, 0, [], some .headFailed)] ∧
    [3009, 3010].map (fun t => (((from_.passage p).passage { p with time := t }).sect 1).list) = [[0], [1, 0]] ∧
    [full, from_.setSection 1 (islandWith 4 [4, 5, 6, 7]), from_.setSection 1 (islandWith 250 [4])].map
      (fun u => ((u.passage p).sect 1).cause) = [some .tableFull, some .listFull, some .overflow] := by decide +kernel

theorem test_passageBetweenDisturbed :
    let from_ := (part .open).setSection 0 (((part .open).sect 0).disturbedBy .headFailed)
    let both := from_.setSection 1 ((from_.sect 1).disturbedBy .start)
    both.bounds 1 = true ∧ both.passage ⟨1, .ab, some 50, 9⟩ = both := by decide +kernel

/-- What a passage makes of a movement: ARRIVING at 100 km/h, DUE without a speed and at 300 km/h; STANDING no longer; LEAVING
(R64, R66, R70, R76). -/
theorem test_passageStates :
    let away := ((withTrain { train with dir := .ba, state := .crossing, span := [⟨1, 1⟩] }).setSection 0
      (approachWith 0 [])).setSection 1 (islandWith 1 [3])
    [some 100, none, some 300].map (fun v => timesAt ((part .open).passage ⟨0, .ab, v, 9⟩) 0) =
      [some (.arriving, [some 13209, none, none]), some (.due, [none, some 9, none]),
        some (.due, [none, some 9, none])] ∧
    timesAt ((withTrain { train with rear := some ⟨0, 0⟩ }).passage ⟨0, .ab, none, 100⟩) 3 =
      some (.due, [none, some 100, none]) ∧
    timesAt (away.passage ⟨1, .ba, none, 9⟩) 3 = some (.leaving, [none, none, none]) := by decide +kernel

/-- CROSSING with a short warning and without; LONG-APPROACH in a passage 240.001 s after DUE-since (R70 to R72). -/
theorem test_passageFaults :
    let c : ConfigImage := { config with map := config.map.set 2 ⟨2, 0⟩ }
    let warned : State := { withTrain { train with state := .due, warnedAt := some 0 } with
      store := { Store.initial with active := some c, state := .idle } }
    let long := withTrain { train with state := .due, dueSince := some 0, rear := some ⟨0, 239999⟩ }
    timesAt (warned.passage ⟨1, .ab, none, 27000⟩) 3 = some (.crossing, [none, none, some 0]) ∧
    [26999, 27000].map (fun t => kindsIn (warned.passage ⟨1, .ab, none, t⟩)) = [[.shortWarning], []] ∧
    kindsIn ((long.advance 24000100).passage ⟨0, .ab, none, 240001⟩) = [.longApproach] ∧
    kindsIn (long.passage ⟨0, .ab, none, 239999⟩) = [] := by decide +kernel

/-- The unit with CLEARED records of movement 7. -/
def reused : FaultUnit :=
  let u := (FaultUnit.initial.raise 1 .shortWarning (.movement 7) .major).raise 1 .longApproach (.movement 7) .minor
  (u.clear 2 .shortWarning (.movement 7)).clear 2 .longApproach (.movement 7)

/-- CLEARED records of a number: they leave as the number is given to a new movement, whose fault makes a new record (R80); those
of another number stand; and a LONG-APPROACH of a later period in DUE of the same movement repeats its record (R72, R153). -/
theorem test_reusedNumber :
    let records (u : FaultUnit) : List (Nat × Nat) := u.table.toList.filterMap fun r => r.map fun r => (r.id, r.occurrences)
    let at_ (n : Nat) : State := { part .open with faults := reused, tracker := { Tracker.initial with counter := n } }
    let again : State := ({ withTrain { train with state := .due, dueSince := some 0 } with
      faults := reused } : State).advance 24000100
    [7, 8].map (fun n => records ((at_ n).passage ⟨0, .ab, none, 9⟩).faults) = [[], [(1, 1), (2, 1)]] ∧
    records ((reused.giveNumber 7).raise 3 .shortWarning (.movement 7) .major) = [(3, 1)] ∧ reused.clearedOrder = [0, 1] ∧
    (reused.giveNumber 7).clearedOrder = [] ∧ records (ran (.longApproachExpiry 0 3) again).faults = [(1, 1), (2, 2)] := by
  decide +kernel

/-- What MovementStates speaks of: entries that govern, the states that change by more than a passage, and a state that stands. -/
theorem test_meets_movementStates :
    let s := withTrain train
    let m := { train with state := .arriving, dueTime := some 20000 }
    train.span.map SpanEntry.sect = [] ++ 0 :: [] ∧ s.toward 0 = some .ab ∧ s.toward 1 = none ∧
    s.cfg.auto (s.governingEntry train) = true ∧ s.stateAfter train ⟨false, false, false, 9⟩ = .standing ∧
    s.stateAfter m ⟨false, true, false, 9⟩ = .due ∧ s.stateAfter m ⟨false, false, true, 9⟩ = .arriving ∧
    s.stateAfter { train with origin := .fromDisturbed } ⟨true, false, true, 9⟩ = .due ∧
    s.stateAfter { train with dir := .ba } ⟨false, false, false, 9⟩ = .leaving ∧
    s.recompute 3 ⟨false, false, false, 9⟩ = s ∧ train.warnedAt = none := by decide +kernel

/-- An axle that enters a RESTORING island with a count of 0 sets its sweep entry end. -/
theorem test_passageSweeps :
    let r : Section := { islandWith 0 [] with state := .restoring, cause := some .headFailed, restore := some .sweep }
    ((((withTrain train).setSection 1 r).passage ⟨1, .ab, none, 9⟩).sect 1).sweepEnd = some .a := by decide +kernel

/-- The last axle to leave for outside retires its movement, with the notice where it crossed, and ends a sweep that it came
through. -/
theorem test_passageOut :
    let last := { train with span := [⟨1, 1⟩], crossed := true }
    let s := (withTrain last).setSection 0 (approachWith 0 []) |>.setSection 1 (islandWith 1 [3])
    let swept := s.setSection 1 { islandWith 1 [3] with
      state := .restoring, cause := some .headFailed, restore := some .sweep, sweepEnd := some .a }
    s.sectionBeside 2 Dir.ab.before = none ∧ removeAxle 1 last.span = [] ∧ (s.passage ⟨2, .ab, none, 9⟩).slot 3 = none ∧
    (s.passage ⟨2, .ab, none, 9⟩).faults.queue.any Notice.isPassed = true ∧
    sectionAt (swept.passage ⟨2, .ab, none, 9⟩) 1 = (.clear, 0, [], none) := by decide +kernel

/-- Against a movement: it is reversed where it is whole, on its way out or back, and split where it is astride the head; with
no slot free the section beyond is disturbed. -/
theorem test_passageAgainst :
    let back (m : Movement) (a b : Section) : State := ((withTrain m).setSection 0 a).setSection 1 b
    let p : Passage := ⟨1, .ba, none, 9⟩
    let whole := back { train with span := [⟨1, 1⟩, ⟨0, 1⟩] } (approachWith 1 [3]) (islandWith 1 [3])
    let wide := { train with span := [⟨1, 2⟩, ⟨0, 1⟩] }
    let astride := back wide (approachWith 1 [3]) (islandWith 2 [3])
    let full : State := { astride with tracker := { astride.tracker with
      slots := (Vector.replicate 16 (some { train with number := 9 })).set 3 (some wide) } }
    movementAt ((withTrain train).passage ⟨0, .ba, none, 9⟩) 3 = some ([⟨0, 1⟩], .ba, 7) ∧
    movementAt (whole.passage p) 3 = some ([⟨0, 2⟩], .ba, 7) ∧
    astride.astride p { wide with span := removeAxle 1 wide.span } = true ∧ astride.behindHead p 0 = false ∧
    movementAt (astride.passage p) 3 = some ([⟨1, 1⟩], .ab, 7) ∧ movementAt (astride.passage p) 0 = some ([⟨0, 2⟩], .ba, 1) ∧
    full.freeSlot = none ∧ sectionAt (full.passage p) 0 = (.disturbed, 0, [], some .tableFull) := by decide +kernel

/-- The train with a span, over S0, S1 and S2, a further approach of the track from H3 to H0; S2 with a count and a list. -/
def onThree (span : List SpanEntry) (a b c : Section) : State :=
  ((((part .open).setSlot 3 (some { train with span := span })).setSection 0 a).setSection 1 b).setSection 2 c
def outerWith (n : Nat) (l : List SlotId) : Section :=
  ⟨some ⟨0, .approach .a, 3, 0⟩, n, if n = 0 then .clear else .occupied, none, none, none, l⟩

/-- Against a movement, from S1 into S0: it holds nothing there, and stands whole (0), or in S2 besides (1); or 250 axles, with
S2 (2, 4) or without (3). -/
def against : List State :=
  let clear0 : Section := { approachWith 0 [] with state := .clear }
  [onThree [⟨1, 1⟩] clear0 (islandWith 1 [3]) (outerWith 0 []),
    onThree [⟨1, 2⟩, ⟨2, 1⟩] clear0 (islandWith 2 [3]) (outerWith 1 [3]),
    onThree [⟨1, 1⟩, ⟨0, 250⟩, ⟨2, 1⟩] (approachWith 250 [3]) (islandWith 1 [3]) (outerWith 1 [3]),
    onThree [⟨1, 2⟩, ⟨0, 250⟩] (approachWith 250 [3]) (islandWith 2 [3]) (outerWith 0 []),
    onThree [⟨1, 2⟩, ⟨0, 250⟩, ⟨2, 1⟩] (approachWith 250 [3]) (islandWith 2 [3]) (outerWith 1 [3])]

theorem test_meets_against : against.map tableAgrees = [true, true, true, true, true] := by decide +kernel

/-- The axle is counted for the reversed movement, or for the new one of a split, where that holds nothing in the section
entered (R52, R53); a section at 250 axles or with a list of four is disturbed, and the record loses it. -/
theorem test_passageAgainstFull :
    let p : Passage := ⟨1, .ba, none, 9⟩
    against.map (fun u => ((u.passage p).sect 0).cause) = [none, none, some .overflow, some .overflow, some .overflow] ∧
    (against.take 2).map (fun u => ((u.passage p).sect 0).list) = [[3], [0]] ∧
    against.map (fun u => movementAt (u.passage p) 3) = [some ([⟨0, 1⟩], .ba, 7), some ([⟨1, 1⟩], .ab, 7),
      some ([⟨2, 1⟩], .ba, 7), some ([⟨1, 1⟩], .ab, 7), some ([⟨1, 1⟩], .ab, 7)] ∧
    against.map (fun u => movementAt (u.passage p) 0) = [none, some ([⟨2, 1⟩, ⟨0, 1⟩], .ba, 1), none, none,
      some ([⟨2, 1⟩], .ba, 1)] := by decide +kernel

theorem test_passageAgainstFour :
    let after := (against.take 2).map fun u => (u.setSection 0 (approachWith 4 [4, 5, 6, 7])).passage ⟨1, .ba, none, 9⟩
    after.map (fun t => (t.sect 0).cause) = [some .listFull, some .listFull] ∧
    after.map (movementAt · 3) = [none, some ([⟨1, 1⟩], .ab, 7)] ∧
    after.map (movementAt · 0) = [none, some ([⟨2, 1⟩], .ba, 1)] := by decide +kernel

/-- Split with no slot free, the table agreeing with the sections: fifteen other movements stand in S3 to S9. -/
theorem test_meets_splitFull :
    let s : State := { withTrain train with tracker := { (withTrain train).tracker with
      slots := Vector.ofFn fun k : SlotId => some { train with
        number := k.val + 1, span := if k = 3 then [⟨1, 2⟩, ⟨0, 1⟩] else [⟨Fin.ofNat 10 (3 + k.val % 7), 1⟩] } } }
    let u : State := { s with sections := Vector.ofFn fun x : SectionId =>
      if x = 0 then approachWith 1 [3] else if x = 1 then islandWith 2 [3] else
        let l := (List.finRange 16).filter fun k : SlotId => decide (k ≠ 3 ∧ 3 + k.val % 7 = x.val)
        { approachWith l.length l with place := none } }
    tableAgrees u = true ∧ u.freeSlot = none ∧
    sectionAt (u.passage ⟨1, .ba, none, 9⟩) 0 = (.disturbed, 0, [], some .tableFull) := by decide +kernel

/-- At the advance head of S0: the front axle of an ARRIVING movement sets its due time anew where that is earlier, an axle
that follows it leaves it, and a DISTURBED section hides it. -/
theorem test_passageAdvance :
    let c : ConfigImage := { config with profiles := config.profiles.set 2 ⟨1200, 5, 500, 27, 240, 20, 20⟩ }
    let on (m : Movement) : State := { withTrain m with store := { Store.initial with active := some c, state := .idle } }
    let m := { train with state := .arriving, dueTime := some 20000 }
    let p : Passage := ⟨5, .ab, some 50, 100⟩
    let due (s : State) : Option (Option Time) := (s.slot 3).map Movement.dueTime
    (on m).bounds 5 = false ∧ (on m).placedIn 5 = some 0 ∧ (part .open).placedIn 5 = none ∧ (on m).situation m = .toward ∧
    (on m).cfg.timed ((on m).governingEntry m) = true ∧ due ((on m).passage p) = some (some 6100) ∧
    due ((on m).passage { p with speed := none }) = some (some 20000) ∧
    due ((on { m with advance := some ⟨5, 0⟩ }).passage p) = some (some 20000) ∧
    due ((on m).passage { p with speed := some 300 }) = some none ∧
    ((on m).setSection 0 ((approachWith 2 [3]).disturbedBy .headFailed)).passage p =
      (on m).setSection 0 ((approachWith 2 [3]).disturbedBy .headFailed) := by decide +kernel

/-- The road in a state, its booms all of one state under that state's orders, and a command waiting. -/
def roadIn (st : SeqState) (b : BoomState) (c : Instr) : State :=
  { part st with
    out := { (part st).out with booms := Booms.build fun i => { Boom.off with
      state := b, order := st.order i, downContact := ⟨b == .down, 0⟩, upContact := ⟨b == .up, 0⟩ } }
    pending := [c] }

/-- The last boom, `i`, at its contact, and every other at rest in the state `rest` already. -/
def arriving (st : SeqState) (i : BoomId) (rest : BoomState) (k : ContactId) : State :=
  let s := roadIn st rest (.contactChange 3000 i k true 2000)
  s.setBoom i { s.boom i with
    state := if k = .down then .lowering else .raising, order := if k = .down then .lower else .raise
    downContact := ⟨false, 0⟩, upContact := ⟨false, 0⟩ }

/-- With the lamp condition major. -/
def dimmed (s : State) : State :=
  let red : Lamp := { Lamp.initial with condition := .failed 0 }
  { s with out := { s.out with lamps := { s.out.lamps with redLeft1 := red, redRight1 := red }, major := true } }

/-- One step for each transition (R106, R108, R109, R112, R113, R115, R118). -/
theorem test_transitions :
    (stepped (roadIn .open .up (.hold 0 .service 1))).seq.state = .amber ∧
    (stepped (arriving .entryLowering .entry1 .down .down)).seq.state = .exitWait ∧
    (stepped (arriving .exitLowering .exit2 .down .down)).seq.state = .closed ∧
    (stepped (arriving .reclosing .exit1 .down .down)).seq.state = .closed ∧
    (stepped (dimmed (arriving .reclosing .exit1 .down .down))).seq.state = .failedClosed ∧
    (stepped (arriving .raising .entry2 .up .up)).seq.state = .open ∧
    (stepped (arriving .failedClosed .entry1 .down .down)).seq.state = .closed ∧
    (stepped (roadIn .open .up (.contactChange 3000 .entry1 .up false 2000))).seq.state = .failedClosed := by decide +kernel

/-- With everything but the consents met, the road stays CLOSED. -/
theorem test_waitsForConsent :
    let s : State := { closing with stances := heard }
    s.raiseOtherwise = false ∧ (stepped s).raiseOtherwise = true ∧ (stepped s).seq.state = .closed ∧
    (stepped s).consentComplete = false := by decide +kernel

/-- A movement that becomes DUE beside another track's starts the second-train timer, or starts it again, in a state that hears
it; beside one of its own track it does not. -/
theorem test_secondTrainStarts :
    let on (st : SeqState) (track : TrackId) : State :=
      let s := (withTrain { train with state := .arriving, dueTime := some 0 }).setSlot 4
        (some { train with number := 8, track := track, state := .crossing })
      { s with seq := { (part st).seq with secondTrain := some 77 }, approach := ⟨true, false, true⟩
               pending := [.dueTimeReached 0 3] }
    [on .exitWait 1, on .closed 1, on .closed 0, on .reclosing 1].map (fun s => (stepped s).seq.secondTrain) =
      [some 10000, some 10000, some 77, some 77] ∧ (on .closed 1).now = 0 := by decide +kernel

/-- The second-train timer stands from EXIT-LOWERING into CLOSED, and ends as the road begins to rise, as it also does where an
entry begins to hear it. -/
theorem test_secondTrainEnds :
    let with_ (s : State) : State := { s with seq := { s.seq with secondTrain := some 77 } }
    [arriving .exitLowering .exit2 .down .down, closing, arriving .entryLowering .entry1 .down .down].map
      (fun s => ((stepped (with_ s)).seq.state, (stepped (with_ s)).seq.secondTrain)) =
      [(.closed, some 77), (.raising, none), (.exitWait, none)] := by decide +kernel

/-- The major lamp condition that appears in CLOSED puts LAMP in the set and takes the road to FAILED-CLOSED; in OPEN it does
neither (R116). -/
theorem test_lampAppears :
    let dark (st : SeqState) (b : BoomState) : State :=
      let s := dimmed (roadIn st b (.hold 0 .service 1))
      { s with out := { s.out with major := false } }
    [dark .closed .down, dark .open .up].map (fun s =>
      ((stepped s).out.major, (stepped s).seq.causes.lamp, (stepped s).seq.state)) =
      [(true, true, .failedClosed), (true, false, .amber)] := by decide +kernel

/-- A timer's expiry and the transition after it, in one event: EXIT-WAIT with all booms DOWN ends in CLOSED (log 26). -/
theorem test_twoInOneEvent :
    let s := roadIn .exitWait .down (.exitWaitExpiry 0)
    (stepped { s with seq := { s.seq with stepTimer := some 0 } }).seq.state = .closed := by decide +kernel

/-- A load request refused in NORMAL closes the window; one refused as BUSY leaves it. -/
theorem test_loadRefused :
    let open_ (s : State) : State := { s with ports := { s.ports with window := some ⟨.map, 3, 20, 5⟩ } }
    let busy : State := { kept with store := { kept.store with state := .writing 400 } }
    (part .open).mon.mode ∉ RequestKind.loadData.modes .service ∧ RequestKind.loadData.modes .service ≠ [] ∧
    [open_ (part .open), open_ busy].map (fun s => (ran (.loadData 0 .service 1 1 1 [5, 15]) s).ports.window) =
      [none, some ⟨.map, 3, 20, 5⟩] ∧
    ((ran (.loadData 0 .service 1 1 1 [5, 15]) (open_ (part .open))).port .service).reply =
      some (replyFrame 1 RequestKind.loadData.codeOctet .refusedMode []) := by decide +kernel

/-- The raise blocker appears at its margin and ends as the movement becomes DUE. -/
theorem test_blockerEnds :
    let s := withTrain { train with state := .arriving, dueTime := some 20000 }
    let t := ran (.raiseBlockerAppears 0 3) s
    s.approach.blocker = false ∧ t.approach.blocker = true ∧ (ran (.dueTimeReached 2000000 3) t).approach.blocker = false ∧
    (ran (.dueTimeReached 2000000 3) t).approach.demand = true := by decide +kernel

/-- A restart carries the overflow record over. -/
theorem test_restartOverflow :
    let r : FaultRecord := ⟨9, .tableOverflow, .major, .faultTable, .acknowledged, 5, 6, 3, false, none⟩
    (ran (.restart 0 .service 1) { kept with faults := { kept.faults with overflow := some r } }).faults.overflow =
      some { r with firstSeen := 0, lastSeen := 0, carriedOver := true } := by decide +kernel

/-- A DIRECT needs the agreement of both lanes in DUAL and of Lane A in SINGLE, no older than 30 s. -/
theorem test_agreed :
    let g : LaneStance := { LaneStance.initial with agreement := some ⟨0, 0⟩ }
    let one : State := { part .open with stances := { Stances.initial with laneA := g } }
    let both : State := { one with stances := { Stances.initial with laneA := g, laneB := g } }
    let c : ConfigImage := { config with sequence := { config.sequence with arrangement := 1 - config.sequence.arrangement } }
    let alone : State := { one with store := { one.store with active := some c } }
    one.cfg.dual = true ∧ alone.cfg.dual = false ∧ one.agreed 0 = false ∧ both.agreed 1 = false ∧
    [3000000, 3000100].map (fun dt => ((both.advance dt).agreed 0, (alone.advance dt).agreed 0)) =
      [(true, true), (false, false)] := by decide +kernel

/-- A transition queues its CROSSING-STATUS, or counts it where a queue of 24 gives no place. -/
theorem test_statusQueued :
    let s := roadIn .open .up (.hold 0 .service 1)
    let full : State := { s with faults := { s.faults with
      queue := List.replicate 24 (.faultRaised 1 .supplyWarn .supply .minor 0) } }
    s.mon.held = false ∧ (stepped s).mon.mode = .normal ∧ (stepped s).faults.queue.any Notice.isStatus = true ∧
    (stepped full).faults.queue.length = 24 ∧ (stepped full).faults.queue.any Notice.isStatus = false := by decide +kernel

/-- The notices of the fault table: a repeat of a CLEARED record is raised again under its id; a clear queues FAULT-CLEARED, and
one of its own for the overflow record; PART-RESTARTED is raised, first and again, and not cleared; with the class masked, a
MINOR fault has none. -/
theorem test_faultNotices :
    let u := FaultUnit.initial.raise 1 .supplyWarn .supply .minor
    let counts : FaultRecord := ⟨9, .tableOverflow, .major, .faultTable, .active, 0, 0, 1, false, none⟩
    let again := (u.clear 2 .supplyWarn .supply).raise 3 .supplyWarn .supply .major
    let masked : FaultUnit := { FaultUnit.initial with masks := FaultClass.supply.bit }
    again.queue = [.faultRaised 1 .supplyWarn .supply .minor 1, .faultCleared 1 2, .faultRaised 1 .supplyWarn .supply .major 3] ∧
    again.clearedOrder = [] ∧ ({ u with overflow := some counts } : FaultUnit).clear 2 .supplyWarn .supply =
      FaultUnit.told { (u.clear 2 .supplyWarn .supply) with overflow := some { counts with state := .cleared } } [.faultCleared 9 2] ∧
    ((FaultUnit.initial.partRestarted 4 .restart).partRestarted 5 .restart).queue =
      [.faultRaised 1 .partRestarted .supply .minor 4, .faultRaised 1 .partRestarted .supply .minor 5] ∧
    ((masked.partRestarted 4 .restart).raise 5 .supplyWarn .supply .minor).queue = [] ∧ Drawn u 2 := by
  refine ⟨by decide +kernel, by decide +kernel, by decide +kernel, by decide +kernel, by decide +kernel, by decide, by decide,
    by decide +kernel, fun _ _ => ⟨0, by decide +kernel, fun _ h => absurd h (Nat.not_lt_zero _)⟩⟩

/-- In SETTLING the clear that leaves both sensors QUIET takes a WORKING head to QUIET, and sets quiet-since; that of a FAILED
head it leaves in SETTLING, and a clear beside an occupied sensor leaves either. -/
theorem test_settles :
    let on (f : Option HeadFailure) (b : Bool) : State := (part .open).setHead 4
      { (Head.initial.observe 0) with failure := f, sensorB := ⟨b, 0, false⟩ }
    [on none false, on (some .sensorStuck) false, on none true].map (fun s =>
      let r := (ran (.sensorEvent 1000 4 .a .low 1000) s).head 4
      (r.decoder, r.quietSince, r.sensorA.occupied)) =
      [(.quiet, some 0, false), (.settling, some 0, false), (.settling, none, false)] := by decide +kernel

/-- The eight predicates of TEST for tracks 1 to 4, of which track 1 alone is used: with a DUE movement in S0; with one
CROSSING, ARRIVING or STANDING; with S0 DISTURBED, the map's PROTECTING set; and for movements of an unused track. -/
theorem test_predicates :
    let all : List Predicate := [.occupied, .demand, .crossing, .arriving, .standing, .disturbed, .approachAClear, .approachBClear]
    let bits (s : State) : List Nat := all.map fun q => (State.trackBits (s.answer q)).toNat
    let on (st : MoveState) : State := withTrain { train with state := st }
    [on .due, on .crossing, on .arriving, on .standing, (part .open).setSection 0 ((part .open).sect 0 |>.disturbedBy .headFailed),
      (part .open).setSlot 3 (some { train with track := 2, state := .due })].map bits =
      [[1, 1, 0, 0, 0, 0, 0, 1], [1, 1, 1, 0, 0, 0, 0, 1], [1, 0, 0, 1, 0, 0, 0, 1], [1, 0, 0, 0, 1, 0, 0, 1],
        [1, 1, 0, 0, 0, 1, 0, 1], [0, 0, 0, 0, 0, 0, 1, 1]] := by decide +kernel

/-- A commit of a shorter lane contact time: a PRESENT lane whose last contact is older than it becomes LOST, and one whose last
contact is exactly as old stays PRESENT (log 39). -/
theorem test_commitContact :
    let new : ConfigImage := { single with sequence := { single.sequence with laneContact := 200 } }
    let s : State := { kept with
      store := { Store.initial with active := some single, state := .idle, staging := new }
      stances := { heard with
        permit := true, maintenance := true, laneA := { heard.laneA with agreement := some ⟨0, 0⟩, hold := true } } }
    new.failedCheck = none ∧ s.permits .commit .service = true ∧ s.cfg.dual = new.dual ∧
    s.cfg.laneContactMs ≠ new.laneContactMs ∧ FaultsDistinct s.faults ∧
    [new.laneContactMs, new.laneContactMs + 1].map (fun ms =>
      let t := ran (.commit (ms * 100) .service 1) s
      ((t.lane .a).contact, (t.lane .a).agreement.isSome, (t.lane .a).hold, (t.lane .b).contact, kindsIn t)) =
      [(.present, true, true, .present, []), (.lost, false, true, .lost, [.laneLost, .laneLost])] :=
  ⟨by decide +kernel, by decide +kernel, by decide +kernel, by decide +kernel, fun p _ r _ h => absurd h (by
    have e : kept.faults.table[p] = none := Vector.getElem_replicate ..
    exact fun n => nomatch e.symm.trans n), by decide +kernel⟩

/-- SET-ATTENTION from a lane not heard before, which the contact makes an event: the line after each mode, the queue empty or
not. -/
theorem test_attentionHeard :
    let queued : State := { part .open with faults := { FaultUnit.initial with queue := [.faultCleared 1 0] } }
    queued.heard .laneA = false ∧ queued.permits .setAttention .laneA = true ∧
    [(0, queued), (1, queued), (1, part .open), (2, queued), (3, queued)].map (fun q =>
      let r := (ran (.setAttention 0 .laneA 1 q.1) q.2).port .laneA
      (some r.mode == AttentionMode.ofCode q.1, r.line, r.pulseEnd)) =
      [(true, false, none), (true, true, none), (true, false, none), (true, false, none), (true, false, none)] := by
  decide +kernel

/-- The timers of the states entered, and the red start: of AMBER, RED-WARNING, EXIT-WAIT, CLOSED, OPEN, FAILED-CLOSED. -/
theorem test_entryTimers :
    let timed (s : State) : State := { s with seq := { s.seq with stepTimer := some 0, redStart := some 9 } }
    [roadIn .open .up (.hold 0 .service 1), roadIn .amber .up (.amberExpiry 0), arriving .entryLowering .entry1 .down .down,
      arriving .exitLowering .exit2 .down .down, arriving .raising .entry2 .up .up,
      roadIn .amber .up (.contactChange 3000 .entry1 .up false 2000)].map (fun s =>
      let q := (stepped (timed s)).seq
      (q.state, q.stepTimer, q.minClosed, q.redStart)) =
      [(.amber, some 3000, none, some 9), (.redWarning, some 6000, none, some 0), (.exitWait, some 8030, none, some 9),
        (.closed, none, some (.running 5030), some 9), (.open, none, none, none), (.failedClosed, none, none, some 30)] := by
  decide +kernel

/-- The disagreement supervision begins with the event in which one lane alone comes to consent with raise otherwise permitted,
goes on, and ends with the other's consent. -/
theorem test_disagreementBegins :
    let s : State := { waiting with
      stances := { waiting.stances with laneB := heard.laneB }, pending := [.consent 100 .laneB 1 0, .collect 0 .laneA 1, .consent 0 .laneA 1 0] }
    let t := stepped s
    s.disagreeing = false ∧ s.stances.disagreement = none ∧ t.disagreeing = true ∧ t.stances.disagreement = some ⟨1, false⟩ ∧
    (stepped t).stances.disagreement = some ⟨1, false⟩ ∧ (stepped (stepped t)).stances.disagreement = none := by decide +kernel

/-- A boom under test arrives UP and stays under test; DOWN under a test of LOWER it takes the sequencer's order again. -/
theorem test_meets_boomUnderTest :
    let up : Boom := { Boom.off with state := .raising, order := .raise, source := .test }
    let s := kept.setBoom .exit1 up
    let u := kept.setBoom .exit1 { up with state := .lowering, order := .lower }
    let v := kept.setBoom .exit1 { up with
      state := .settling, order := .lower, pending := some .lower, settleExpiry := some 0, downContact := ⟨true, 0⟩ }
    s.out.driven = true ∧ s.approach.traffic = s.trafficNow ∧
    ((ran (.contactChange 3000 .exit1 .up true 2000) s).boom .exit1).source = .test ∧
    ((ran (.contactChange 3000 .exit1 .down true 2000) u).boom .exit1).source = .sequencer ∧
    (v.boom .exit1).pending = some .lower ∧ (v.boom .exit1).settleExpiry = some 0 ∧
    ((ran (.settleExpiry 0 .exit1) v).boom .exit1).source = .sequencer := by decide +kernel

/-- A STOPPED boom whose order became LOWER within the run of its DOWN contact recovers from that change of order (R135). -/
theorem test_recoveryFromOrder :
    let s := withBoom { Boom.off with state := .stopped, order := .raise }
    let lowered := (s.boom .entry1).takeOrder .lower 1000 12000
    let t := ran (.contactChange 1500 .entry1 .down true 2000) ((s.advance 1000).setBoom .entry1 lowered)
    lowered.orderSince = 1000 ∧ (t.boom .entry1).downContact = ⟨true, 5⟩ ∧ (t.boom .entry1).recoverySince = some 10 := by
  decide +kernel

/-- LONG_APPROACH_EXPIRY raises its fault and leaves the records, the generation number and the lines (R58, R72, R168). -/
theorem test_longApproachLeaves :
    let s : State := { withTrain { train with state := .due, dueSince := some 0 } with approach := ⟨true, false, true⟩ }
    let t := ran (.longApproachExpiry 24000100 3) s
    (t.slot 3).map Movement.longRaised = some true ∧ t.tracker.generation = s.tracker.generation ∧
    (t.port .laneA).pulseEnd = none ∧ t.faults.queue.length = s.faults.queue.length + 1 := by decide +kernel

/-- Three wrong phases running raise a channel's fault, MAJOR beside a failed red, whose record is then re-graded; three right
ones clear it, and stray current and the coil likewise. -/
theorem test_lampFaults :
    let s := part .open
    let bad : Lamp := { Lamp.initial with condition := .proven 2 }
    let pair := ((s.setLamp .redLeft1 bad).setLamp .redRight1 bad).judgeLit .redRight1 false
    let severities (s : State) : List (FaultKind × Severity × FaultState) :=
      s.faults.table.toList.filterMap fun r => r.map fun r => (r.kind, r.severity, r.state)
    severities pair = [(.redLampOut, .minor, .active)] ∧
    severities (pair.judgeLit .redLeft1 false) = [(.redLampOut, .major, .active), (.redLampOut, .major, .active)] := by
  decide +kernel

/-- A change of the records pulses the line in CHANGE-AND-STEP for 50 µs; an event that changes none leaves it. -/
theorem test_pulses :
    let s := withTrain { train with state := .arriving, dueTime := some 0 }
    (s.port .laneA).mode = .changeAndStep ∧ s.cfg.dual = true ∧
    ((ran (.dueTimeReached 0 3) s).port .laneA).pulseEnd = some 5 ∧ ((ran (.dueTimeReached 0 3) s).port .laneA).line = true ∧
    ((ran (.status 0 .signaller 1) s).port .laneA).pulseEnd = none := by decide +kernel

theorem test_meets_outputs : OutputsFollow (ran (.stabilisationWaitEnd 200000) State.reset) := by
  intro _
  refine ⟨⟨fun _ => Or.inl (by decide +kernel), fun _ => by decide +kernel⟩, fun c => by cases c <;> decide +kernel,
    by decide +kernel, by decide +kernel⟩

/-- A frame that passes the frame check, as an option. -/
theorem passes_of_some {l : List Octet} {f : Frame} (h : (match checkFrame l with
    | .ok f => some f
    | .error _ => none) = some f) : checkFrame l = .ok f := by
  split at h
  · next e => rw [e, Option.some.inj h]
  · cases h

theorem test_meets_topology :
    let s : State := { kept with store := { kept.store with staging := single } }
    TopologyCommitted { s with pending := [.commit 0 .service 1] } ∧
    TopologyCommitted { s with pending := [.requestFrameFailed 0 .service (requestFrame 1 34 [])] } := by
  have changed : ∀ c, some config = some c → c.sections ≠ single.sections ∨ c.heads ≠ single.heads := fun c h => by
    cases h; exact Or.inl (by decide +kernel)
  have passed : checkFrame (requestFrame 1 34 []) = .ok ⟨1, .commit, []⟩ := passes_of_some (by decide +kernel)
  exact ⟨⟨0, .service, [], Or.inl ⟨1, rfl⟩, by decide +kernel, by decide +kernel, by decide +kernel, changed⟩,
    ⟨0, .service, [], Or.inr ⟨_, _, rfl, passed, rfl⟩, by decide +kernel, by decide +kernel, by decide +kernel, changed⟩⟩

/-! ## The cause set -/

/-- `CausesFollow` as a check. -/
def causesAgree (s : State) : Bool :=
  let q := s.seq.causes
  q.boom == s.out.booms.anyStopped && (!q.lamp || s.out.lamps.major) && (!q.start || s.mon.mode != .normal) &&
  q.config == (s.mon.mode == .unconfigured || s.seq.configMark)

theorem causesFollow_of_agree {s : State} (h : causesAgree s = true) : CausesFollow s := by
  simp only [causesAgree, Bool.and_eq_true, beq_iff_eq, Bool.or_eq_true, Bool.not_eq_true', bne_iff_ne] at h
  obtain ⟨⟨⟨hb, hl⟩, hs⟩, hc⟩ := h
  refine ⟨?_, fun e => hl.resolve_left (by rw [e]; decide), fun e => hs.resolve_left (by rw [e]; decide), ?_⟩
  · rw [hb]; exact Booms.anyStopped_iff _
  · rw [hc]; simp

/-- The sequencer's state and the cause set, BOOM, LAMP, START, CONFIG. -/
def causesOf (s : State) : SeqState × List Bool :=
  (s.seq.state, [s.seq.causes.boom, s.seq.causes.lamp, s.seq.causes.start, s.seq.causes.config])

/-- The same state with a cause set. -/
def withCauses (s : State) (q : Causes) : State := { s with seq := { s.seq with causes := q } }

/-- A STOPPED boom whose recovery has run, with BOOM in the set, and one whose recovery has not begun. -/
def stoppedBoom (s : State) (since : Option Time) : State :=
  withCauses (s.setBoom .entry1 { s.boom .entry1 with
    state := .stopped, failures := BoomFailures.only .boomDisplaced, recoverySince := since }) ⟨true, false, false, false⟩

/-- LAMP in the set, and one lit phase short of the recovery of a red. -/
def lampCause : State :=
  let red : Lamp := { Lamp.initial with condition := .failed 2, lit := true }
  let s := roadIn .failedClosed .down (.phaseEnd 60000 ⟨0, 400, 0, 0, 0, 0⟩)
  withCauses { s with out := { s.out with
    lamps := { s.out.lamps with redLeft1 := red, redRight1 := { Lamp.initial with condition := .failed 0 } }
    major := true, flash := ⟨.one, 600, true⟩ } } ⟨false, true, false, false⟩

/-- States that meet the premises of the rules on the cause set. -/
def causeStates : List State :=
  [State.reset, closing, lampCause, stoppedBoom (roadIn .failedClosed .down (.boomRecoveryExpiry 200000 .entry1)) (some 0),
    dimmed (arriving .reclosing .exit1 .down .down), reading single, reading ConfigImage.blank]

theorem test_meets_causes : (∀ s ∈ causeStates, CausesFollow s) ∧ lampCause.out.major = lampCause.out.lamps.major :=
  ⟨fun s h => causesFollow_of_agree (List.all_eq_true.mp (by decide +kernel : causeStates.all causesAgree = true) s h),
    by decide +kernel⟩

/-- Each cause leaves: BOOM as its boom recovers, LAMP as the condition ends, START and CONFIG at a good image; LAMP enters at the
end of a closing, and a blank image leaves START beside CONFIG. -/
theorem test_causes :
    [stepped lampCause, stepped (stoppedBoom (roadIn .failedClosed .down (.boomRecoveryExpiry 200000 .entry1)) (some 0)),
      stepped (dimmed (arriving .reclosing .exit1 .down .down)), ran (.readCompletion 0) (reading single),
      ran (.readCompletion 0) (reading ConfigImage.blank), ran (.powerOn 23000) lampCause,
      ran (.restart 0 .service 1) (withCauses kept ⟨false, false, false, true⟩)].map causesOf =
      [(.closed, [false, false, false, false]), (.closed, [false, false, false, false]),
        (.failedClosed, [false, true, false, false]), (.failedClosed, [false, false, false, false]),
        (.failedClosed, [false, false, true, true]), (.failedClosed, [false, false, true, false]),
        (.failedClosed, [false, false, true, false])] := by decide +kernel

/-- The end of maintenance takes START and CONFIG from the set, and a FAILED-CLOSED road to CLOSED with it, under the same number,
if no other cause stands: not with a boom STOPPED. -/
theorem test_maintenanceEnds :
    let on : State :=
      let s := roadIn .failedClosed .down (.collect 0 .laneA 1)
      let s : State := { s with mon := kept.mon, stances := kept.stances, seq := { s.seq with configMark := true, closure := 9 } }
      withCauses s ⟨false, false, true, true⟩
    let ended (s : State) := (causesOf s, s.seq.closure, s.mon.mode, s.seq.configMark)
    let stuck : State := withCauses (stoppedBoom on none) ⟨true, false, true, true⟩
    causesAgree on = true ∧ causesAgree stuck = true ∧ on.permits .leaveMaintenance .service = true ∧
    on.permits .withdrawPermit .signaller = true ∧
    [ran (.leaveMaintenance 0 .service 1) on, ran (.withdrawPermit 0 .signaller 1) on,
      ran (.leaveMaintenance 0 .service 1) stuck].map ended =
      [((.closed, [false, false, false, false]), 9, .normal, false), ((.closed, [false, false, false, false]), 9, .normal, false),
        ((.failedClosed, [true, false, false, false]), 9, .normal, false)] := by decide +kernel

/-- A fall of the supply from GOOD through both thresholds raises both faults, SUPPLY-WARN first (logs 7 and 14). -/
theorem test_supplyFalls :
    let t := ran (.supplyStateChange 0 20499) (part .open)
    t.mon.supply = .low ∧ kindsIn t = [.supplyWarn, .supplyLow] ∧
    (ran (.supplyStateChange 0 22201) t).faults.clearedOrder = [1, 0] := by decide +kernel

/-! ## Layouts -/

/-- Some items of R181 written out, and the octets of STATUS over the cause set, the mode and the sequencer. -/
theorem test_layouts :
    let s : State := withTrain train
    let r : FaultRecord := ⟨9, .laneLost, .major, .lane .b, .active, 0x1234, 0x56789, 3, true, none⟩
    noticeLayout (.movementPassed 7 2 .ba 40 (some 300) 0x1020304) = [91, 44, 7, 40, 1, 2, 3, 4] ∧
    noticeLayout (.faultRaised 9 .laneLost (.lane .b) .major 5) = [16, 9, 15, 5, 1, 1, 0, 0, 0, 5] ∧
    sectionLayout s 0 = [2, 1, 0, 1, 2, 1, 0, 0, 1, 7, 0, 0, 0] ∧
    faultLayout { FaultUnit.initial with table := FaultUnit.initial.table.set 2 (some r) } 2 = [1, 9, 15, 6, 1, 5, 1, 0, 0, 18, 52, 0, 5, 103, 137, 3, 1, 0, 0] ∧
    (movementLayout (some train)).take 14 = [1, 7, 16, 2, 0, 0, 0, 2, 0, 100, 0, 1, 0, 2] ∧
    (statusLayout lampCause).take 24 = [2, 0, 1, 0, 0, 0, 0, 0, 0, 0, 0, 0, 0, 0, 9, 0, 0, 0, 2, 0, 0, 0, 0, 0] := by decide +kernel

/-! ## Boom tests, the pulse timer, the flash clock and the tones -/

/-- A boom raised by a test, in MAINTENANCE, beside a movement that is ARRIVING. -/
def testing : State :=
  let s := (withTrain { train with state := .arriving, dueTime := some 0 }).setBoom .exit1
    { Boom.off with state := .up, order := .raise, source := .test, upContact := ⟨true, 0⟩, travelExpiry := some 0 }
  { s with seq := kept.seq, mon := kept.mon, stances := kept.stances, approach := ⟨s.demandNow, s.blockerNow, s.trafficNow⟩ }

theorem test_meets_testing : RoadHeld testing ∧ StartUpShape testing ∧ (testing.boom .exit1).source = .test ∧
    PulseFollows testing :=
  ⟨⟨fun i => by cases i <;> decide +kernel, fun i => by cases i <;> decide +kernel, fun _ => by decide +kernel,
    fun h => absurd h (by decide), by decide +kernel⟩,
    ⟨fun h => absurd h (by decide), fun h => absurd rfl h, fun _ h => by cases h⟩, by decide +kernel,
    ⟨fun h => absurd rfl h, fun h => absurd h (by decide)⟩, fun h => absurd rfl h⟩

/-- A boom test ends, and the boom is ordered LOWER, as a movement becomes DUE and as the boom is displaced, passes its travel
limit or is in conflict; an UP contact that closes again leaves it under test. -/
theorem test_boomTestEnds :
    let moving := testing.setBoom .exit1 { testing.boom .exit1 with state := .raising }
    let both := testing.setBoom .exit1 { testing.boom .exit1 with conflictSince := some 0 }
    let loose := testing.setBoom .exit1 { testing.boom .exit1 with state := .settling, pending := some .raise }
    [ran (.dueTimeReached 0 3) testing, ran (.contactChange 3000 .exit1 .up false 2000) testing,
      ran (.boomTravelExpiry 0 .exit1) moving, ran (.contactConflictExpiry 20000 .exit1) both,
      ran (.contactChange 3000 .exit1 .up false 2000) loose].map (fun t =>
      ((t.boom .exit1).source, (t.boom .exit1).order, (t.boom .exit1).state)) =
      [(.sequencer, .lower, .lowering), (.sequencer, .lower, .stopped), (.sequencer, .lower, .stopped),
        (.sequencer, .lower, .stopped), (.test, .raise, .settling)] := by decide +kernel

/-- The drives of a boom in each state, and with the outputs off. -/
theorem test_drives :
    let on (b : BoomState) : State := withBoom { Boom.off with state := b }
    let drives (s : State) := (s.lowerDrive .entry1, s.raiseDrive .entry1, s.holdApplied .entry1)
    [BoomState.up, .lowering, .down, .raising, .settling, .stopped].map (fun b => drives (on b)) =
      [(false, false, true), (true, false, false), (false, false, false), (false, true, true), (false, false, true),
        (false, false, false)] ∧ drives State.reset = (false, false, false) := by decide +kernel

/-- The pulse timer starts on the entry into OPEN and ends on leaving it; the reds that begin to flash begin phase one; a changed
programme begins its first tone, or stops it. -/
theorem test_entryClocks :
    let sound : Audible := ⟨.warning, some ⟨true, 700, 900⟩, false, 0⟩
    let dark (s : State) : State := { s with out := { s.out with flash := ⟨.two, 900, false⟩, pulseTimer := some 700 } }
    let loud (s : State) : State := { s with out := { s.out with audible := sound } }
    let clocks (s : State) := (s.seq.state, s.out.pulseTimer, s.out.flash, s.out.audible.programme, s.out.audible.tone)
    [stepped (arriving .raising .entry2 .up .up), stepped (dark (roadIn .open .up (.hold 0 .service 1))),
      stepped (dark (roadIn .amber .up (.contactChange 3000 .entry1 .up false 2000))),
      stepped (loud (arriving .exitLowering .exit2 .down .down))].map clocks =
      [(.open, some 60030, ⟨.one, 0, false⟩, .silent, none), (.amber, none, ⟨.two, 900, false⟩, .silent, none),
        (.failedClosed, none, ⟨.one, 630, true⟩, .warning, some ⟨false, 700, 530⟩),
        (.closed, none, ⟨.one, 630, true⟩, .silent, none)] := by decide +kernel

/-! ## The faults of a commit -/

/-- A change of the topology clears the faults of the movements and of the sections left unused, raises SECTION-DISTURBED for each
section used, and clears CONFIG-INVALID; a change to SINGLE clears those of Lane B. -/
theorem test_commitFaults :
    let standing : List (FaultKind × Subject) := [(.shortWarning, .movement 7), (.longApproach, .movement 7),
      (.sectionDisturbed, .sect 1), (.sectionListFull, .sect 1), (.movementTableFull, .sect 1), (.sectionListFull, .sect 0), (.laneLost, .lane .b),
      (.laneDisagree, .lane .b), (.configInvalid, .configuration)]
    let s : State := { testing with
      faults := standing.foldl (fun u e => u.raise 0 e.1 e.2 e.1.severity) FaultUnit.initial
      store := { testing.store with staging := { single with sequence := { single.sequence with arrangement := 1 } } } }
    let t := ran (.commit 100000 .service 1) s
    s.permits .commit .service = true ∧ s.store.staging.failedCheck = none ∧ s.cfg.dual = true ∧
    (t.faults.table.toList.filterMap fun r => r.map fun r => (r.kind, r.subject, r.state)) =
      standing.map (fun e => (e.1, e.2, if e = (.sectionListFull, .sect 0) then .active else .cleared)) ++
        [(.sectionDisturbed, .sect 0, .active)] ∧ t.faults.clearedOrder = [0, 1, 2, 3, 4, 6, 7, 8] := by decide +kernel

/-- A restart takes the supply state afresh, and every boom is LOWERING with its travel limit. -/
theorem test_restartValues :
    let t := ran (.restart 0 .service 1) { kept with mon := { kept.mon with supply := .warn, sense := 22100 } }
    t.mon.supply = .good ∧ BoomId.all.map (fun i => (t.boom i).state) = List.replicate 4 .lowering ∧
    (t.boom .exit1).travelExpiry = some 12000 ∧ t.out.audible.programme = .warning := by decide +kernel

end Sys2Proof.Tests
end

section
/-!
PROOFS. SET-ATTENTION (O21). First the rules about the port records and about a request that is permitted and has nothing of its
own to hand round; then what the end of an event makes of an attention line; then R179 and R180 for the request itself.
-/
namespace Sys2Proof.Machine

/-! ## Port records -/

theorem Ports.get_set_same (v : Ports) (p : Port) (r : PortRecord) : (v.set p r).get p = r := by cases p <;> rfl

theorem Ports.get_set_other (v : Ports) {p q : Port} (r : PortRecord) (h : q ≠ p) : (v.set p r).get q = v.get q := by
  cases p <;> cases q <;> first | rfl | exact absurd rfl h

namespace State

@[simp] theorem port_setPort_same (s : State) (p : Port) (r : PortRecord) : (s.setPort p r).port p = r :=
  Ports.get_set_same _ _ _

theorem port_setPort_other (s : State) {p q : Port} (r : PortRecord) (h : q ≠ p) : (s.setPort p r).port q = s.port q :=
  Ports.get_set_other _ _ h

/-- Writing a port's own record back changes nothing. -/
theorem setPort_port (s : State) (p : Port) : s.setPort p (s.port p) = s := by cases p <;> rfl

@[simp] theorem port_replied_same (s : State) (p : Port) (tag : Octet) (k : RequestKind) (o : ReplyOutcome)
    (d : List Octet) :
    (s.replied p tag k o d).port p = { s.port p with reply := some (replyFrame tag k.codeOctet o d) } :=
  port_setPort_same _ _ _

theorem port_replied_other (s : State) {p q : Port} (tag : Octet) (k : RequestKind) (o : ReplyOutcome) (d : List Octet)
    (h : q ≠ p) : (s.replied p tag k o d).port q = s.port q := port_setPort_other _ _ h

/-- The closing of the load window touches the window alone. -/
theorem closeWindowIf_eq (s : State) (p : Port) (c : Bool) :
    ∃ w, s.closeWindowIf p c = { s with ports := { s.ports with window := w } } := by
  unfold closeWindowIf
  split
  · exact ⟨none, rfl⟩
  · exact ⟨s.ports.window, rfl⟩

/-! ## What a request finds -/

/-- A contact that does not change clears no fault (R85). -/
theorem contactBy_faults {s : State} {p : Port} (h : s.contactChanges p = false) : (s.contactBy p).faults = s.faults := by
  unfold contactChanges at h
  unfold contactBy
  split
  · next l hl =>
    rw [hl] at h
    have present : (s.lane l).contact = .present := by simpa using h
    simp [takeContact, present]
  · rfl

/-- A request has arrived, and is not yet taken: the time has moved on and its port has shifted out zeros (R173). -/
def arrived (s : State) (dt : Nat) (p : Port) (args : List Octet) : State :=
  (s.advance dt).shiftOut p (List.replicate (args.length + 6) 0)

theorem asked_of_arrived (s : State) (dt : Nat) (k : RequestKind) (p : Port) (args : List Octet) :
    s.asked dt k p args = ((s.arrived dt p args).contactBy p).closeWindowIf p (!k.isLoad) := rfl

/-- The state in which a request is judged is the one in which it has arrived, but for the contact of its lane with the faults
that clears, and the load window. -/
theorem asked_eq (s : State) (dt : Nat) (k : RequestKind) (p : Port) (args : List Octet) :
    ∃ u v w, s.asked dt k p args = { s.arrived dt p args with
      faults := u
      stances := v
      ports := { (s.arrived dt p args).ports with window := w } } := by
  obtain ⟨u, a, b, -, h⟩ := contactBy_lanes (s.arrived dt p args) p
  obtain ⟨w, hw⟩ := closeWindowIf_eq ((s.arrived dt p args).contactBy p) p (!k.isLoad)
  rw [asked_of_arrived, hw, h]
  exact ⟨u, _, w, rfl⟩

section
variable (s : State) (dt : Nat) (k : RequestKind) (p : Port) (args : List Octet)

@[simp] theorem asked_mon : (s.asked dt k p args).mon = s.mon := by
  obtain ⟨_, _, _, h⟩ := asked_eq s dt k p args; rw [h]; rfl

@[simp] theorem asked_cfg : (s.asked dt k p args).cfg = s.cfg := by
  obtain ⟨_, _, _, h⟩ := asked_eq s dt k p args; rw [h]; rfl

@[simp] theorem asked_tracker : (s.asked dt k p args).tracker = s.tracker := by
  obtain ⟨_, _, _, h⟩ := asked_eq s dt k p args; rw [h]; rfl

@[simp] theorem port_asked_same : (s.asked dt k p args).port p =
    { s.port p with shifted := List.replicate (args.length + 6) 0 } := by
  obtain ⟨_, _, _, h⟩ := asked_eq s dt k p args
  rw [h]
  exact Ports.get_set_same s.ports p _

theorem port_asked_other {q : Port} (hq : q ≠ p) : (s.asked dt k p args).port q = s.port q := by
  obtain ⟨_, _, _, h⟩ := asked_eq s dt k p args
  rw [h]
  exact Ports.get_set_other s.ports _ hq

/-- A request that changes no contact clears no LANE-LOST (R85). -/
theorem asked_faults (h : s.heard p = true) : (s.asked dt k p args).faults = s.faults := by
  have unchanged : s.contactChanges p = false := by simpa [heard] using h
  obtain ⟨w, hw⟩ := closeWindowIf_eq ((s.arrived dt p args).contactBy p) p (!k.isLoad)
  rw [asked_of_arrived, hw]
  exact contactBy_faults (s := s.arrived dt p args) unchanged

end

/-! ## A permitted request -/

theorem permits_iff (s : State) (k : RequestKind) (p : Port) : s.permits k p = true ↔
    s.mon.held = false ∧ s.mon.mode ∈ k.modes p ∧ s.shutOut p = false := by
  simp [permits, and_assoc]

/-- What is permitted passes the port and mode checks, but a DIRECT restore of the service port (R175, R176). -/
theorem permission_none {s : State} {k : RequestKind} {p : Port} {args : List Octet} (h : s.permits k p = true)
    (hd : directFromService k p args = false) : s.permission k p args = none := by
  obtain ⟨-, hm, hs⟩ := (permits_iff s k p).mp h
  have he : (k.modes p).isEmpty = false := by
    cases hl : k.modes p with
    | nil => rw [hl] at hm; cases hm
    | cons _ _ => rfl
  simp [permission, he, hs, hd, hm]

/-- Where nothing is handed round, the frame of the end of an event holds. -/
theorem eventFrame_refl (s : State) : EventFrame s s := by
  have red : redStartSet s s = false := by unfold redStartSet; cases s.seq.state <;> rfl
  have cleared : disagreeCleared s s = false := by unfold disagreeCleared; cases s.seq.state <;> simp
  have dropped : consentsDropped s s = false := by unfold consentsDropped; cases s.seq.state <;> simp
  refine ⟨rfl, rfl, rfl, rfl, rfl, rfl, rfl, fun k => ?_, ⟨fun l => ?_, rfl, rfl, rfl, rfl, .inl rfl⟩, .refl _,
    ⟨.inl ?_, rfl, rfl, rfl, fun _ _ h _ => h, fun _ => ⟨rfl, rfl, rfl⟩⟩, rfl, fun _ => .refl _⟩
  · simp [SlotFrame, red]
  · simp [dropped]
  · simp [faultsFollowed, cleared]

/-- A request that is answered with nothing of its own to hand round: its reply is placed in the state the answer has left, and
the request ends as an event where the contact of its lane changes (R85, R173). -/
theorem takeRequest_quiet {s m : State} {k : RequestKind} {p : Port} {tag : Octet} {args d : List Octet}
    {act : State → Answer} {o : ReplyOutcome}
    (hj : ((s.contactBy p).closeWindowIf p (!k.isLoad)).judge k p args act = ⟨m, o, d, .quiet⟩)
    (hw : (k.isLoad && o == .refusedMode) = false) :
    s.takeRequest k p tag args act =
      if s.contactChanges p then finish s (m.replied p tag k o d) else m.replied p tag k o d := by
  have kept : m.closeWindowIf p false = m := if_neg fun h => Bool.false_ne_true h.2
  unfold takeRequest
  simp only [hj, hw, kept]
  rfl

section
variable {s m : State} {dt : Nat} {k : RequestKind} {p : Port} {tag : Octet} {args d : List Octet} {act : State → Answer}
  {o : ReplyOutcome} (h : s.permits k p = true) (hd : directFromService k p args = false) (hf : k.formHolds args = true)
  (hl : args.length ≤ 254) (hw : (k.isLoad && o == .refusedMode) = false)
  (ha : act (s.asked dt k p args) = ⟨m, o, d, .quiet⟩)
include h hd hf hl hw ha

/-- A permitted request of the right form, answered with nothing of its own to hand round (R175). -/
theorem request_quiet : s.request dt k p tag args act =
    if s.contactChanges p then finish (s.arrived dt p args) (m.replied p tag k o d) else m.replied p tag k o d := by
  have held : s.mon.held = false := ((permits_iff s k p).mp h).1
  have allowed : (s.asked dt k p args).permission k p args = none :=
    permission_none (by simpa [permits, shutOut] using h) hd
  have judged : (s.asked dt k p args).judge k p args act = ⟨m, o, d, .quiet⟩ := by
    unfold judge; rw [allowed]; exact ha
  have short : ¬ args.length + 2 > 256 := by omega
  unfold request
  simp only [held, hf, short, Bool.not_true, Bool.false_eq_true, if_false]
  exact takeRequest_quiet (s := s.arrived dt p args) judged hw

/-- A permitted request with nothing of its own to hand round answers alone. -/
theorem answersAlone_quiet {c : Instr} (hc : exec c s = .next (s.request dt k p tag args act)) :
    AnswersAlone p c s (m.replied p tag k o d) := by
  rw [request_quiet h hd hf hl hw ha] at hc
  cases hch : s.contactChanges p <;> rw [hch] at hc
  · exact ⟨⟨_, hc, eventFrame_refl _⟩, fun _ => hc⟩
  · exact ⟨⟨_, hc, finish_frame _ _ _⟩, fun hh => absurd hh (by simp [heard, hch])⟩

end

/-! ## The attention lines at the end of an event -/

theorem pulsed_iff (r : PortRecord) (c b : Bool) : pulsed r c b = true ↔
    ((r.mode = .change ∨ r.mode = .changeAndStep) ∧ c = true) ∨ (r.mode = .changeAndStep ∧ b = true) := by
  unfold pulsed
  cases r.mode <;> simp

/-- The line of a port that is not shut out by the SINGLE arrangement, at the end of an event (R180). -/
theorem driveLine_open {s : State} {p : Port} (h : s.shutOut p = false) (c b : Bool) (r : PortRecord) :
    (s.driveLine c b p r).pulseEnd = (if pulsed r c b then some (s.uptime + pulseLength) else r.pulseEnd) ∧
    (s.driveLine c b p r).line = s.lineLevel (s.driveLine c b p r) := by
  have hp : ¬(p = .laneB ∧ s.cfg.dual = false) := by
    rintro ⟨rfl, hd⟩
    simp [shutOut, hd] at h
  unfold driveLine
  rw [if_neg hp]
  constructor
  · show (if _ then _ else _ : PortRecord).pulseEnd = _
    split <;> rfl
  · rfl

theorem port_driveLines (s : State) (c b : Bool) (p : Port) :
    (s.driveLines c b).port p = s.driveLine c b p (s.port p) := by cases p <;> rfl

/-- The end of an event drives the lines last, of ports still as the event's own effect has left them; a pulse for the generation
number is given exactly where that number has advanced (R58, R180). -/
theorem finish_driveLines (pre s : State) (topology : Bool) : ∃ (c : Bool) (y : State),
    finish pre s topology = y.driveLines c (y.seq.state != pre.seq.state) ∧ y.ports = s.ports ∧
    (y.tracker.generation ≠ s.tracker.generation ↔ c = true) := by
  have advanced : ∀ (x : State) (c : Bool), (x.advanceGeneration c).ports = x.ports ∧
      ((x.advanceGeneration c).tracker.generation ≠ x.tracker.generation ↔ c = true) := by
    intro x c
    cases c <;> simp [advanceGeneration]
  obtain ⟨_, _, _, _, _, _, _, _, -, -, hround⟩ := handRound_handed s pre
  have hports : (s.handRound pre).ports = s.ports := by rw [hround]
  have hgen : (s.handRound pre).tracker.generation = s.tracker.generation := by rw [hround]
  obtain ⟨haports, hagen⟩ := advanced (s.handRound pre) (topology || (s.handRound pre).recordsChanged pre)
  obtain ⟨_, -, hstatus⟩ := followStatus_only
    ((s.handRound pre).advanceGeneration (topology || (s.handRound pre).recordsChanged pre)) pre
  refine ⟨_, _, rfl, ?_, ?_⟩
  · rw [hstatus]
    exact haports.trans hports
  · rw [hstatus, ← hgen]
    exact hagen

/-- The attention line and the pulse of a port after the end of an event that began in `pre` and whose own effect has left `s`
(R180): a pulse begins with an advance of the generation number in CHANGE, and with that or a change of the sequencer's state in
CHANGE-AND-STEP; the line stands as the mode, the pulse and the queue then say. -/
theorem finish_line (pre s : State) (topology : Bool) {p : Port} (h : s.shutOut p = false) :
    let t := finish pre s topology
    (t.port p).pulseEnd = (if ((s.port p).mode = .change ∨ (s.port p).mode = .changeAndStep) ∧
          t.tracker.generation ≠ s.tracker.generation ∨ (s.port p).mode = .changeAndStep ∧ t.seq.state ≠ pre.seq.state
        then some (t.uptime + pulseLength) else (s.port p).pulseEnd) ∧
    (t.port p).line = t.lineLevel (t.port p) := by
  intro t
  obtain ⟨c, y, ht, hports, hgen⟩ := finish_driveLines pre s topology
  change t = _ at ht
  have hport : t.port p = y.driveLine c (y.seq.state != pre.seq.state) p (s.port p) := by
    rw [ht, port_driveLines]; unfold port; rw [hports]
  have hopen : y.shutOut p = false := by
    have kept : t.cfg = s.cfg := (finish_finished pre s topology).cfg
    have driven : t.cfg = y.cfg := by rw [ht]; rfl
    unfold shutOut at h ⊢
    rw [← driven, kept]; exact h
  obtain ⟨hpulse, hline⟩ := driveLine_open hopen c (y.seq.state != pre.seq.state) (s.port p)
  rw [← hport] at hpulse hline
  refine ⟨?_, by rw [hline, ht]; rfl⟩
  obtain ⟨htime, htracker, hseq⟩ : t.uptime = y.uptime ∧ t.tracker = y.tracker ∧ t.seq = y.seq := by
    rw [ht]; exact ⟨rfl, rfl, rfl⟩
  simp only [hpulse, htime, htracker, hseq, pulsed_iff, hgen, bne_iff_ne]

/-! ## SET-ATTENTION -/

/-- The code of the mode that an octet names is that octet (R179). -/
theorem ofCode_mode {a : Octet} {m : AttentionMode} (h : AttentionMode.ofCode a = some m) : octet m.code = a := by
  unfold AttentionMode.ofCode at h
  split at h <;> cases h
  all_goals next hn => exact BitVec.eq_of_toNat_eq (by rw [hn]; rfl)

theorem ofCode_none {a : Octet} (h : 3 < a.toNat) : AttentionMode.ofCode a = none := by
  unfold AttentionMode.ofCode
  split <;> first | rfl | omega

theorem attend_same (s : State) {r : PortRecord} {m : AttentionMode} (h : m = r.mode) : s.attend r m = r := if_pos h.symm

theorem attend_change (s : State) {r : PortRecord} {m : AttentionMode} (h : m ≠ r.mode) :
    s.attend r m = { r with mode := m, pulseEnd := none, line := m == .notice && !s.faults.queue.isEmpty } :=
  if_neg (Ne.symm h)

theorem attend_mode (s : State) (r : PortRecord) (m : AttentionMode) : (s.attend r m).mode = m := by
  by_cases h : m = r.mode
  · rw [attend_same s h, h]
  · rw [attend_change s h]

theorem attend_pulseEnd (s : State) (r : PortRecord) (m : AttentionMode) :
    (s.attend r m).pulseEnd = if m = r.mode then r.pulseEnd else none := by
  by_cases h : m = r.mode
  · rw [attend_same s h, if_pos h]
  · rw [attend_change s h, if_neg h]

theorem setAttention_taken (s : State) (p : Port) {a : Octet} {m : AttentionMode} (h : AttentionMode.ofCode a = some m) :
    setAttention p a s = ⟨s.setPort p (s.attend (s.port p) m), .done, [a], .quiet⟩ := by
  unfold setAttention
  rw [h]
  show Answer.quiet _ [octet m.code] = _
  rw [ofCode_mode h]; rfl

theorem setAttention_refused (s : State) (p : Port) {a : Octet} (h : 3 < a.toNat) :
    setAttention p a s = ⟨s, .refusedRange, [], .quiet⟩ := by
  unfold setAttention
  rw [ofCode_none h]; rfl

/-- What a SET-ATTENTION that names a mode leaves of its own effect: the record of the sending port attended, in the state in
which the request is judged, and the reply with the mode (R179). -/
def attended (s : State) (dt : Nat) (p : Port) (tag a : Octet) (m : AttentionMode) : State :=
  ((s.asked dt .setAttention p [a]).setPort p
    ((s.asked dt .setAttention p [a]).attend ((s.asked dt .setAttention p [a]).port p) m)).replied
      p tag .setAttention .done [a]

section
variable (s : State) (dt : Nat) (p : Port) (tag a : Octet) (m : AttentionMode)

@[simp] theorem attended_mode : ((s.attended dt p tag a m).port p).mode = m := by
  simp [attended, attend_mode]

@[simp] theorem attended_pulseEnd : ((s.attended dt p tag a m).port p).pulseEnd =
    if m = (s.port p).mode then (s.port p).pulseEnd else none := by
  simp [attended, attend_pulseEnd]

theorem attended_other {q : Port} (h : q ≠ p) : (s.attended dt p tag a m).port q = s.port q := by
  unfold attended
  rw [port_replied_other _ _ _ _ _ h, port_setPort_other _ _ h, port_asked_other _ _ _ _ _ h]

@[simp] theorem attended_generation : (s.attended dt p tag a m).tracker.generation = s.tracker.generation :=
  congrArg Tracker.generation (asked_tracker s dt .setAttention p [a])

@[simp] theorem attended_shutOut : (s.attended dt p tag a m).shutOut p = s.shutOut p :=
  congrArg (fun c : ConfigImage => p == .laneB && !c.dual) (asked_cfg s dt .setAttention p [a])

variable {s dt p tag a m}

/-- The mode the port already has leaves its record as it was (R179). -/
theorem attended_same (h : m = (s.port p).mode) : s.attended dt p tag a m =
    (s.asked dt .setAttention p [a]).replied p tag .setAttention .done [a] := by
  unfold attended
  rw [attend_same _ (by simpa using h), setPort_port]

/-- A change of mode ends a pulse under way and takes the line to the level of the new mode (R179). -/
theorem attended_change (h : m ≠ (s.port p).mode) : s.attended dt p tag a m =
    let asked := s.asked dt .setAttention p [a]
    (asked.setPort p { asked.port p with
      mode := m, pulseEnd := none, line := m == .notice && !asked.faults.queue.isEmpty }).replied
        p tag .setAttention .done [a] := by
  unfold attended
  rw [attend_change _ (by simpa using h)]

theorem setAttention_answers (h : s.permits .setAttention p = true) (hm : AttentionMode.ofCode a = some m) :
    AnswersAlone p (.setAttention dt p tag a) s (s.attended dt p tag a m) :=
  answersAlone_quiet h rfl rfl (by simp) rfl (setAttention_taken _ p hm) rfl

/-- A SET-ATTENTION by which the contact of its lane changes ends as an event (R85). -/
theorem setAttention_finishes (h : s.permits .setAttention p = true) (hm : AttentionMode.ofCode a = some m)
    (hh : s.heard p = false) : exec (.setAttention dt p tag a) s =
      .next (finish (s.arrived dt p [a]) (s.attended dt p tag a m)) := by
  have changes : s.contactChanges p = true := by simpa [heard] using hh
  have hr := request_quiet (tag := tag) (dt := dt) (args := [a]) h rfl rfl (by simp) rfl (setAttention_taken _ p hm)
  exact congrArg Host.Outcome.next (hr.trans (if_pos changes))

/-- The pulse and the line of the sending port after a SET-ATTENTION that ends as an event, as R180 gives them for the mode then
set. -/
theorem attended_finish_line (h : s.permits .setAttention p = true) :
    let t := finish (s.arrived dt p [a]) (s.attended dt p tag a m)
    (t.port p).pulseEnd = (if ((m = .change ∨ m = .changeAndStep) ∧ t.tracker.generation ≠ s.tracker.generation) ∨
          (m = .changeAndStep ∧ t.seq.state ≠ s.seq.state)
        then some (t.uptime + pulseLength) else if m = (s.port p).mode then (s.port p).pulseEnd else none) ∧
    (t.port p).line = t.lineLevel (t.port p) := by
  obtain ⟨-, -, hopen⟩ := (permits_iff s _ p).mp h
  have ended := finish_line (s.arrived dt p [a]) (s.attended dt p tag a m) false (p := p) (by simpa using hopen)
  rw [attended_mode, attended_generation, attended_pulseEnd] at ended
  exact ended

end

end State

/-- Settles O21: each clause is read off the state the request leaves, `attended`, as it stands where no contact changes, and at
the end of an event where one does. -/
theorem setAttentionResult : Obligations.SetAttentionResult := by
  intro dt p tag a s h asked
  refine ⟨fun m hm same => ?_, fun m hm change => ?_, fun heard m hm change => ?_, fun heard m hm same => ?_,
    fun unheard m hm => ?_, fun above => ?_⟩
  · rw [← State.attended_same same]
    exact State.setAttention_answers h hm
  · rw [← State.attended_change change]
    exact State.setAttention_answers h hm
  · have line : ((s.attended dt p tag a m).port p).line = (m == .notice && !s.faults.queue.isEmpty) := by
      rw [State.attended_change change, ← State.asked_faults s dt .setAttention p [a] heard]
      simp
    exact ⟨_, (State.setAttention_answers h hm).2 heard, by simp, by simp [change], line,
      fun q hq => State.attended_other s dt p tag a m hq⟩
  · have line : ((s.attended dt p tag a m).port p).line = (s.port p).line := by
      rw [State.attended_same same]
      simp
    exact ⟨_, (State.setAttention_answers h hm).2 heard, by simp, by simp [same], line,
      fun q hq => State.attended_other s dt p tag a m hq⟩
  · have ended := State.finish_finished (s.arrived dt p [a]) (s.attended dt p tag a m) false
    obtain ⟨pulse, line⟩ := State.attended_finish_line (dt := dt) (tag := tag) (a := a) (m := m) h
    have mode := (ended.mode p).trans (State.attended_mode s dt p tag a m)
    refine ⟨_, State.setAttention_finishes h hm unheard, mode, fun q hq => ?_, pulse, line.trans ?_⟩
    · rw [ended.mode q, State.attended_other s dt p tag a m hq]
    · cases m <;> simp only [State.lineLevel, mode]
  · exact State.answersAlone_quiet h rfl rfl (by simp) rfl (State.setAttention_refused _ p above) rfl

end Sys2Proof.Machine
end

section
/-!
PROOFS. LOAD-WINDOW (O36). First what a request of the service port other than a load finds; then each answer of the request
itself, refused or taken.
-/
namespace Sys2Proof.Machine

/-! ## Table codes -/

theorem TableId.ofCode_none {a : Octet} (h : 5 < a.toNat) : TableId.ofCode a = none := by
  unfold TableId.ofCode
  split
  case h_7 => rfl
  all_goals omega

/-- The entry tests of a window fail exactly as R183 words them. -/
theorem entriesFail_iff (t : TableId) (b c : Octet) :
    entriesFail t b c = true ↔ c.toNat < b.toNat ∨ t.entries ≤ c.toNat := by
  simp [entriesFail]

namespace State

/-! ## A request of the service port -/

/-- The service port has no lane, so its requests change no contact (R85). -/
theorem heard_service (s : State) : s.heard .service = true := by
  simp [heard, contactChanges, contactLane, Port.lane]

@[simp] theorem asked_store (s : State) (dt : Nat) (k : RequestKind) (p : Port) (args : List Octet) :
    (s.asked dt k p args).store = s.store := by
  obtain ⟨_, _, _, h⟩ := asked_eq s dt k p args; rw [h]; rfl

/-- A request of the service port other than a load finds the load window closed (R172). -/
theorem asked_window_service (s : State) (dt : Nat) {k : RequestKind} (args : List Octet) (h : k.isLoad = false) :
    (s.asked dt k .service args).ports.window = none := by
  have closes : ∀ t : State, t.closeWindowIf .service true = t.closeWindow := fun _ => if_pos ⟨rfl, rfl⟩
  rw [asked_of_arrived, h]
  exact congrArg (fun t : State => t.ports.window) (closes _)

/-! ## LOAD-WINDOW -/

section
variable {s : State} {a b c : Octet} {t : TableId}

theorem loadWindow_noTable (h : TableId.ofCode a = none) : loadWindow a b c s = .refuse s .refusedRange := by
  unfold loadWindow; rw [h]

theorem loadWindow_outside (ht : TableId.ofCode a = some t) (h : c.toNat < b.toNat ∨ t.entries ≤ c.toNat) :
    loadWindow a b c s = .refuse s .refusedRange := by
  unfold loadWindow; rw [ht]
  exact if_pos ((entriesFail_iff t b c).mpr h)

section
variable (ht : TableId.ofCode a = some t) (hfirst : b.toNat ≤ c.toNat) (hlast : c.toNat < t.entries)
include ht hfirst hlast

/-- Entries that pass the range tests leave the answer to the store alone (R183). -/
theorem loadWindow_inside : loadWindow a b c s =
    if s.store.busy then .refuse s .busy
    else .quiet { s with ports := { s.ports with window := some ⟨t, b.toNat, c.toNat, b.toNat⟩ } } [] := by
  have passes : ¬ entriesFail t b c = true := by rw [entriesFail_iff]; omega
  unfold loadWindow; rw [ht]
  exact if_neg passes

theorem loadWindow_busy (hs : s.store.busy = true) : loadWindow a b c s = .refuse s .busy :=
  (loadWindow_inside ht hfirst hlast).trans (if_pos hs)

theorem loadWindow_taken (hs : s.store.busy = false) : loadWindow a b c s =
    .quiet { s with ports := { s.ports with window := some ⟨t, b.toNat, c.toNat, b.toNat⟩ } } [] :=
  (loadWindow_inside ht hfirst hlast).trans (if_neg (by simp [hs]))

end

/-- A permitted LOAD-WINDOW leaves what its own effect leaves, with the reply: it is the service port's, and so ends no event. -/
theorem exec_loadWindow {m : State} {dt : Nat} {tag : Octet} {o : ReplyOutcome} {d : List Octet}
    (h : s.permits .loadWindow .service = true)
    (ha : loadWindow a b c (s.asked dt .loadWindow .service [a, b, c]) = ⟨m, o, d, .quiet⟩) :
    exec (.loadWindow dt .service tag a b c) s = .next (m.replied .service tag .loadWindow o d) :=
  (answersAlone_quiet h rfl rfl (by simp) rfl ha rfl).2 (heard_service s)

end

end State

/-- Settles O36: the range refusals, then BUSY, then the window opened, each from the answer of LOAD-WINDOW in the state in which
the request is judged. -/
theorem loadWindowResult : Obligations.LoadWindowResult := by
  refine ⟨fun p => by cases p <;> rfl, rfl, rfl, rfl, rfl, rfl, rfl, fun dt tag a b c s h => ?_⟩
  refine ⟨State.asked_window_service s dt _ rfl, fun above => ?_, fun t ht => ⟨fun outside => ?_, fun hfirst hlast =>
    ⟨fun busy => ?_, fun idle => ?_⟩⟩⟩
  · exact State.exec_loadWindow h (State.loadWindow_noTable (TableId.ofCode_none above))
  · exact State.exec_loadWindow h (State.loadWindow_outside ht outside)
  · exact State.exec_loadWindow h (State.loadWindow_busy ht hfirst hlast (by simpa using busy))
  · exact State.exec_loadWindow h (State.loadWindow_taken ht hfirst hlast (by simpa using idle))

end Sys2Proof.Machine
end
